-- ==== Sys2Proof/Word.lean ====
section
/-! DEFINITION. The words of the block: the byte, the 32-bit host command word and the 90-byte frame. -/

namespace Sys2Proof

/-- A byte, unsigned, bits numbered from 0 at the least significant (R9). -/
abbrev Byte := BitVec 8

/-- A host command word (R70, R78). -/
abbrev HostWord := BitVec 32

/-- FRAME_LEN (R7): a frame has 90 bytes, "wire-exact". -/
abbrev frameLen : Nat := 90

/-- A frame: a sequence of exactly 90 bytes indexed 0..89 (R9). Its length is carried with it, so a
buffer of another length is no frame (R107). -/
structure Frame where
  bytes : List Byte
  len : bytes.length = frameLen
  deriving DecidableEq, Repr

/-- The five value bytes of a frame, offsets 8..12 (R71). -/
structure Values where
  v0 : Byte
  v1 : Byte
  v2 : Byte
  v3 : Byte
  v4 : Byte
  deriving DecidableEq, Repr

end Sys2Proof
end

