-- ==== Sys2Proof/Config.lean ====
section
/-! DEFINITION. What the spec leaves to the implementation: the OPEN parameters of R8. Each is an opaque constant with no
body, so nothing can be proved of its value; a claim holds whatever it is. The parameters the source fixes (the table of R7)
are definitions of Machine/Fixed.lean, where a repair could mend an unaudited literal. -/

namespace Sys2Proof

/-- The two resolution encoder variants (R24, R141): 0 = Legacy, 1 = Extended. -/
inductive Variant where
  | legacy
  | extended
  deriving DecidableEq, Repr, Inhabited

/-- The two-byte device-side selector of an LED, sent as value bytes 0 and 1 in that order (R28). -/
structure Selector where
  s0 : Byte
  s1 : Byte
  deriving DecidableEq, Repr, Inhabited

/-- The parameters of R8 that stay fixed for a run. -/
structure Params where
  sel0 : Selector
  sel1 : Selector
  sel2 : Selector
  writeReq : Byte
  readReq : Byte
  timeoutMs : Nat
  deriving DecidableEq, Repr

/-- SENSOR_GEN as sampled by the power-on reset (R24, D8: OPEN). -/
opaque Config.sensorGen : Variant

/-- THUMB_PRESENT as sampled by the power-on reset (R25, D7: OPEN). -/
opaque Config.thumbPresent : Bool

/-- LED_SEL[i] (R28, D6: OPEN). -/
opaque Config.ledSel : Nat → Selector

/-- WRITE_REQ (R8, D22: OPEN). -/
opaque Config.writeReq : Byte

/-- The draw READ_REQ is made from (R8, D22: OPEN). -/
opaque Config.readReqDraw : Byte

/-- The draw TIMEOUT_MS is made from (R8, D22: OPEN). -/
opaque Config.timeoutDraw : Nat

/-- READ_REQ: any byte other than WRITE_REQ (R8 "8-bit, != WRITE_REQ"). A draw that equals WRITE_REQ is moved by one, so
that every admitted pair is taken by some draws and no other pair is. -/
def Config.readReq : Byte :=
  if Config.readReqDraw = Config.writeReq then Config.readReqDraw + 1 else Config.readReqDraw

/-- The parameters of a machine that has just been built. TIMEOUT_MS is positive (R8). -/
def Config.params : Params :=
  { sel0 := Config.ledSel 0
    sel1 := Config.ledSel 1
    sel2 := Config.ledSel 2
    writeReq := Config.writeReq
    readReq := Config.readReq
    timeoutMs := Config.timeoutDraw + 1 }

end Sys2Proof
end

