-- ==== Sys2Proof/Machine/Fixed.lean ====
section
/-! DEFINITION. The parameters the source fixes: the table of R7, every literal at the value given there (R5, D34), and the
codes the spec gives registers and operands. FRAME_LEN is `frameLen` of Word.lean, the length of the frame type. -/

namespace Sys2Proof.Machine

/-- CK_FIRST (R7). -/
def ckFirst : Nat := 2
/-- CK_LAST, inclusive (R7). -/
def ckLast : Nat := 87
/-- CK_OFFSET (R7). -/
def ckOffset : Nat := 88
/-- N_LEGACY (R7, R140). -/
def nLegacy : Nat := 56
/-- N_EXTENDED (R7, R140). -/
def nExtended : Nat := 82
/-- RES_STEP (R7). -/
def resStep : Nat := 100
/-- RES_BASE (R7). -/
def resBase : Nat := 100
/-- PROBE_ATTEMPTS (R7, R161). -/
def probeAttempts : Nat := 5
/-- PROBE_DELAY_MS (R7, R161). -/
def probeDelayMs : Nat := 250
/-- READ_ATTEMPTS (R7, R128). -/
def readAttempts : Nat := 3
/-- READ_DELAY_MS (R7, R128). -/
def readDelayMs : Nat := 0
/-- SPACING_MS (R7): the transport's duty, no step of the block (R126). -/
def spacingMs : Nat := 25
/-- USB_VALUE (R7, R120, R121). -/
def usbValue : BitVec 16 := 0x0300#16
/-- USB_INDEX (R7, R120, R121). -/
def usbIndex : BitVec 16 := 0#16
/-- LED_COUNT (R7): the ids 0 scroll, 1 logo, 2 thumb-grid (R27). -/
def ledCount : Nat := 3
/-- CLAIM_MAX (R8): the largest value of the 8-bit claim counter. -/
def claimMax : BitVec 8 := 255#8

/-- The LED state codes (R27); 3 is reserved. -/
def ledUnsupported : BitVec 2 := 0#2
/-- LED state Off (R27). -/
def ledOff : BitVec 2 := 1#2
/-- LED state On (R27). -/
def ledOn : BitVec 2 := 2#2

/-- The (command id, request id) pairs of R74. -/
def idsFwquery : BitVec 16 × BitVec 16 := (0x0002#16, 0x0081#16)
/-- RESSET_LEGACY (R74). -/
def idsRessetLegacy : BitVec 16 × BitVec 16 := (0x0003#16, 0x0401#16)
/-- RESSET_EXT (R74). -/
def idsRessetExt : BitVec 16 × BitVec 16 := (0x0007#16, 0x0405#16)
/-- LEDSET (R74). -/
def idsLedset : BitVec 16 × BitVec 16 := (0x0003#16, 0x0300#16)
/-- FREQSET (R74). -/
def idsFreqset : BitVec 16 × BitVec 16 := (0x0001#16, 0x0005#16)

end Sys2Proof.Machine
end

