-- ==== Sys2Proof/Machine/Codec.lean ====
section
/-! DEFINITION. The frame codec of 40_codec.md: byte order, CHECKSUM, ENCODE, DECODE, VERIFY, STATUS CLASSIFICATION. Pure and
total on 90-byte frames (R107): nothing here reads or writes State. -/

namespace Sys2Proof.Machine

/-- `be16(hi, lo)` (R10). -/
def be16 (hi lo : Byte) : BitVec 16 := hi ++ lo

/-- `hi8(v)` (R10). -/
def hi8 (v : BitVec 16) : Byte := v.extractLsb' 8 8

/-- `lo8(v)` (R10). -/
def lo8 (v : BitVec 16) : Byte := v.extractLsb' 0 8

/-- `F[i]` (R9); every rule of the spec keeps i in 0..89. -/
def byteAt (f : Frame) (i : Nat) : Byte := f.bytes.getD i 0#8

/-- `F[i] <- b` (R9). -/
def setByte (f : Frame) (i : Nat) (b : Byte) : Frame :=
  { bytes := f.bytes.set i b, len := by rw [List.length_set]; exact f.len }

/-- `F[a..a+n-1]` (R9). -/
def slice (f : Frame) (a n : Nat) : List Byte := (f.bytes.drop a).take n

/-- Ninety bytes of 0. -/
def zeroFrame : Frame := { bytes := List.replicate frameLen 0#8, len := List.length_replicate }

/-- A list of 90 bytes as a frame. No rule gives it another length (R55, R56); a shorter list would be filled with 0 and a
longer one cut. -/
def frameOf (bs : List Byte) : Frame :=
  { bytes := (bs ++ List.replicate frameLen 0#8).take frameLen
    len := by rw [List.length_take, List.length_append, List.length_replicate]; omega }

/-- CHECKSUM (R100): the XOR of bytes 2..87 inclusive. -/
def checksum (f : Frame) : Byte :=
  (List.range' ckFirst (ckLast + 1 - ckFirst)).foldl (fun c i => c ^^^ byteAt f i) 0#8

/-- The frame ENCODE holds just before its last line (R102): ids and values set, checksum byte still 0. -/
def encodeBody (cmd req : BitVec 16) (v : Values) : Frame :=
  let f := setByte (setByte zeroFrame 4 (hi8 cmd)) 5 (lo8 cmd)
  let f := setByte (setByte f 6 (hi8 req)) 7 (lo8 req)
  let f := setByte (setByte (setByte f 8 v.v0) 9 v.v1) 10 v.v2
  setByte (setByte f 11 v.v3) 12 v.v4

/-- Recompute the checksum byte from the current content (R106). -/
def withChecksum (f : Frame) : Frame := setByte f ckOffset (checksum f)

/-- ENCODE (R102). -/
def encodeFrame (cmd req : BitVec 16) (v : Values) : Frame := withChecksum (encodeBody cmd req v)

/-- The record DECODE gives (R103). -/
structure Fields where
  status : Byte
  padA : List Byte
  cmd : BitVec 16
  req : BitVec 16
  values : Values
  padB : List Byte
  checksum : Byte
  padC : Byte
  deriving DecidableEq, Repr

/-- DECODE (R103): pure structural reinterpretation; it rejects nothing. -/
def decodeFields (f : Frame) : Fields :=
  { status := byteAt f 0
    padA := slice f 1 3
    cmd := be16 (byteAt f 4) (byteAt f 5)
    req := be16 (byteAt f 6) (byteAt f 7)
    values :=
      { v0 := byteAt f 8, v1 := byteAt f 9, v2 := byteAt f 10, v3 := byteAt f 11, v4 := byteAt f 12 }
    padB := slice f 13 75
    checksum := byteAt f 88
    padC := byteAt f 89 }

/-- VERIFY (R104). -/
def ckOk (f : Frame) : Bool := checksum f == (decodeFields f).checksum

/-- STATUS CLASSIFICATION (R105): NORMAL_STATUS is 0, 1, 2. -/
def statusNormal (s : Byte) : Bool := s == 0#8 || s == 1#8 || s == 2#8

/-- The FWQUERY frame (R160). -/
def fwqueryFrame : Frame := encodeFrame idsFwquery.1 idsFwquery.2 ⟨0#8, 0#8, 0#8, 0#8, 0#8⟩

/-- A RESSET_LEGACY frame (R143, R75). -/
def ressetLegacyFrame (vx vy : Byte) : Frame :=
  encodeFrame idsRessetLegacy.1 idsRessetLegacy.2 ⟨vx, vy, 0#8, 0#8, 0#8⟩

/-- A RESSET_EXT frame (R144, R75). -/
def ressetExtFrame (x y : BitVec 16) : Frame :=
  encodeFrame idsRessetExt.1 idsRessetExt.2 ⟨0#8, hi8 x, lo8 x, hi8 y, lo8 y⟩

/-- A LEDSET frame (R166, R75). -/
def ledsetFrame (s0 s1 on : Byte) : Frame :=
  encodeFrame idsLedset.1 idsLedset.2 ⟨s0, s1, on, 0#8, 0#8⟩

/-- A FREQSET frame (R167, R75). -/
def freqsetFrame (fcode : Byte) : Frame :=
  encodeFrame idsFreqset.1 idsFreqset.2 ⟨fcode, 0#8, 0#8, 0#8, 0#8⟩

end Sys2Proof.Machine
end

