-- ==== Sys2Proof/Syntax.lean ====
section
/-! DEFINITION. The instructions: one constructor for each row of spec/opcode_table.json, in the table's order. The first
five are the frames the sequencer sends (R74, R75), the other six the host operations (R79). -/

namespace Sys2Proof

inductive Instr where
  /-- FWQUERY (R160): the firmware version query; all value bytes 0. -/
  | fwquery
  /-- RESSET_LEGACY (R143): value bytes 0 and 1, the X and Y resolution bytes. -/
  | ressetLegacy (vx vy : Byte)
  /-- RESSET_EXT (R144): the raw X and Y resolutions, big-endian at value bytes 1..2 and 3..4. -/
  | ressetExt (x y : BitVec 16)
  /-- LEDSET (R166): the LED's selector at value bytes 0 and 1, and 1 (On) or 0 at value byte 2. -/
  | ledset (s0 s1 on : Byte)
  /-- FREQSET (R167): the frequency byte at value byte 0. -/
  | freqset (fcode : Byte)
  /-- ACQUIRE (R193). -/
  | acquire
  /-- RELEASE (R194). -/
  | release
  /-- SETLED A, B (R195): A = LED id, B = requested state code. -/
  | setled (a b : Byte)
  /-- SETFREQ A (R196): A = frequency code. -/
  | setfreq (a : Byte)
  /-- SETRES A, B (R197): A = axis id, B = mapping index. -/
  | setres (a b : Byte)
  /-- COMMIT force (R198). -/
  | commit (force : Bool)
  deriving DecidableEq, Repr

/-- What crosses the block's boundary as an instruction: a host command word or a frame (R70). -/
inductive Wire where
  | host (w : HostWord)
  | frame (f : Frame)
  deriving DecidableEq, Repr

/-- Why a word or a frame is no instruction. -/
inductive Reject where
  /-- No row of R79 matches the host word (R81). -/
  | illegalHostWord
  /-- The (command id, request id) pair is none of the five of R74 (R77). -/
  | unknownIds
  /-- The pair is one of the five, and a byte the block always sends as 0 (status, padding, an unused value byte; R72, R75)
  is not 0. -/
  | reservedByte
  deriving DecidableEq, Repr

end Sys2Proof
end

