-- ==== Sys2Proof/WellFormed.lean ====
section
/-! DEFINITION. Which instructions the block can meet. Every operand of a host operation is well formed: an out-of-domain
operand is a legal encoding that fails at execution (R80). A frame is well formed when the block can build it from some
contents of its registers. -/

namespace Sys2Proof

/-- A legacy resolution byte is 4 times a cursor, truncated: a multiple of 4 (R143). -/
def wfLegacyByte (v : Byte) : Bool := v.toNat % 4 == 0

/-- A raw resolution is 100 * (k + 1) for a 7-bit cursor k (R140, R144; off-table cursors included, R146). -/
def wfResolution (r : BitVec 16) : Bool := r.toNat % 100 == 0 && 100 ≤ r.toNat && r.toNat ≤ 12800

/-- The on byte is 1 if On else 0 (R166). -/
def wfOnByte (v : Byte) : Bool := v == 0 || v == 1

/-- The frequency byte is 8, 2 or 1 (R167). -/
def wfFreqByte (v : Byte) : Bool := v == 8 || v == 2 || v == 1

/-- The well-formed instructions. -/
def Instr.wf : Instr → Bool
  | .fwquery => true
  | .ressetLegacy vx vy => wfLegacyByte vx && wfLegacyByte vy
  | .ressetExt x y => wfResolution x && wfResolution y
  | .ledset _ _ on => wfOnByte on
  | .freqset fcode => wfFreqByte fcode
  | .acquire => true
  | .release => true
  | .setled _ _ => true
  | .setfreq _ => true
  | .setres _ _ => true
  | .commit _ => true

end Sys2Proof
end

