-- ==== Sys2Proof/Decode.lean ====
section
/-! DEFINITION. The decoders of the two formats (R70), total and rejecting by name, and the encoder. -/

namespace Sys2Proof

open Machine (byteAt decodeFields)

/-- The opcode field w[31:24] (R78). -/
def hostOpcode (w : HostWord) : Byte := w.extractLsb' 24 8
/-- The A field w[23:16] (R78). -/
def hostA (w : HostWord) : Byte := w.extractLsb' 16 8
/-- The B field w[15:8] (R78). -/
def hostB (w : HostWord) : Byte := w.extractLsb' 8 8
/-- The Z field w[7:0], reserved (R78). -/
def hostZ (w : HostWord) : Byte := w.extractLsb' 0 8
/-- The word with the given fields and Z = 0: `opcode << 24 | A << 16 | B << 8` (R78, R83). -/
def hostWord (opcode a b : Byte) : HostWord := opcode ++ a ++ b ++ 0#8

/-- A row of the host opcode map (R79). -/
structure HostRow where
  pattern : HostWord
  mask : HostWord
  build : HostWord → Instr

/-- The host opcode map (R79), in the table's order. -/
def hostRows : List HostRow :=
  [ ⟨0x01000000#32, 0xFFFFFFFF#32, fun _ => .acquire⟩,
    ⟨0x02000000#32, 0xFFFFFFFF#32, fun _ => .release⟩,
    ⟨0x10000000#32, 0xFF0000FF#32, fun w => .setled (hostA w) (hostB w)⟩,
    ⟨0x11000000#32, 0xFF00FFFF#32, fun w => .setfreq (hostA w)⟩,
    ⟨0x12000000#32, 0xFF0000FF#32, fun w => .setres (hostA w) (hostB w)⟩,
    ⟨0x20000000#32, 0xFFFEFFFF#32, fun w => .commit (w.getLsbD 16)⟩ ]

/-- Whether a row matches a word: `w & mask = match` (R81). -/
def HostRow.hits (r : HostRow) (w : HostWord) : Bool := w &&& r.mask == r.pattern

/-- The host decoder: a word is legal iff some row matches it (R81); an illegal word is rejected. -/
def decodeHost (w : HostWord) : Except Reject Instr :=
  match hostRows.find? (fun r => r.hits w) with
  | some r => .ok (r.build w)
  | none => .error .illegalHostWord

/-- The bytes every frame the block sends holds as 0: status and padding (R72). -/
def fixedBytesZero (f : Frame) : Bool :=
  let d := decodeFields f
  d.status == 0#8 && d.padA.all (· == 0#8) && d.padB.all (· == 0#8) && d.padC == 0#8

/-- The frame decoder: the kind is selected by the pair of ids, exactly (R74); the value bytes are its operands (R75). The
checksum byte is not read: decoding "does not itself validate checksum" (R103) and sendCommand recomputes it (R106). -/
def decodeFrame (f : Frame) : Except Reject Instr :=
  let d := decodeFields f
  let v := d.values
  let ids := (d.cmd, d.req)
  let found : Except Reject (Instr × List Byte) :=
    if ids = Machine.idsFwquery then .ok (.fwquery, [v.v0, v.v1, v.v2, v.v3, v.v4])
    else if ids = Machine.idsRessetLegacy then .ok (.ressetLegacy v.v0 v.v1, [v.v2, v.v3, v.v4])
    else if ids = Machine.idsRessetExt then
      .ok (.ressetExt (Machine.be16 v.v1 v.v2) (Machine.be16 v.v3 v.v4), [v.v0])
    else if ids = Machine.idsLedset then .ok (.ledset v.v0 v.v1 v.v2, [v.v3, v.v4])
    else if ids = Machine.idsFreqset then .ok (.freqset v.v0, [v.v1, v.v2, v.v3, v.v4])
    else .error .unknownIds
  match found with
  | .ok (i, unused) =>
    if fixedBytesZero f && unused.all (· == 0#8) then .ok i else .error .reservedByte
  | .error e => .error e

/-- The decoder of both formats. -/
def decode : Wire → Except Reject Instr
  | .host w => decodeHost w
  | .frame f => decodeFrame f

/-- The encoder (R75, R79). -/
def encode : Instr → Wire
  | .fwquery => .frame Machine.fwqueryFrame
  | .ressetLegacy vx vy => .frame (Machine.ressetLegacyFrame vx vy)
  | .ressetExt x y => .frame (Machine.ressetExtFrame x y)
  | .ledset s0 s1 on => .frame (Machine.ledsetFrame s0 s1 on)
  | .freqset fcode => .frame (Machine.freqsetFrame fcode)
  | .acquire => .host (hostWord 0x01#8 0#8 0#8)
  | .release => .host (hostWord 0x02#8 0#8 0#8)
  | .setled a b => .host (hostWord 0x10#8 a b)
  | .setfreq a => .host (hostWord 0x11#8 a 0#8)
  | .setres a b => .host (hostWord 0x12#8 a b)
  | .commit force => .host (hostWord 0x20#8 (if force then 1#8 else 0#8) 0#8)

/-- The frame a FRAME row's 32-bit match word stands for: the word is `be16(F[4],F[5]) * 65536 + be16(F[6],F[7])` (R74), so
its four bytes lie big-endian at offsets 4..7; every other byte is 0. -/
def tableFrame (w : HostWord) : Frame :=
  let f := Machine.setByte Machine.zeroFrame 4 (w.extractLsb' 24 8)
  let f := Machine.setByte f 5 (w.extractLsb' 16 8)
  let f := Machine.setByte f 6 (w.extractLsb' 8 8)
  Machine.setByte f 7 (w.extractLsb' 0 8)

/-- How a table word reaches the block: a FRAME row's word as the frame with those ids, every other word on the host command
port. No word is in both maps: the opcode byte of every FRAME row's word is 0x00, which no host row has. -/
def tableWire (w : HostWord) : Wire :=
  match decodeFrame (tableFrame w) with
  | .ok _ => .frame (tableFrame w)
  | .error _ => .host w

/-- The instruction the decoder reads from a table row's bits; both formats give their rows 32 bits. -/
def decodeTableWord (nbits w : Nat) : Option Instr :=
  if nbits = 32 then
    match decode (tableWire (BitVec.ofNat 32 w)) with
    | .ok i => some i
    | .error _ => none
  else none

end Sys2Proof
end

