-- ==== Sys2Proof/Machine/State.lean ====
section
/-! DEFINITION. The state of the block (10_state.md), the events of its trace, the ways a step can stop, and the state after
reset. Plain data throughout. -/

namespace Sys2Proof.Machine

/-- PHASE (R20); its 2-bit code is `phaseCode` of Flags.lean. -/
inductive Phase where
  | init
  | idle
  | busy
  | offline
  deriving DecidableEq, Repr

/-- The routine of SEQ_PC (R32). -/
inductive Routine where
  | none
  | init
  | commit
  deriving DecidableEq, Repr

/-- The stage of SEQ_PC (R32); `absent` is the '-' of `SEQ_PC <- (NONE, -, NONE)` (R170; log 7). -/
inductive Stage where
  | absent
  | probe
  | res
  | led
  | freq
  deriving DecidableEq, Repr

/-- The wait of SEQ_PC (R32). -/
inductive Wait where
  | none
  | write
  | read
  | sleep
  deriving DecidableEq, Repr

/-- SEQ_PC, the sequencer's position (R32). -/
structure SeqPc where
  routine : Routine
  stage : Stage
  wait : Wait
  deriving DecidableEq, Repr

/-- The configuration snapshot CONFIG (R39): FREQ (R26), LED[0..2] (R27), XMAP and YMAP (R29), VARIANT (R24). -/
structure Conf where
  freq : BitVec 8
  led0 : BitVec 2
  led1 : BitVec 2
  led2 : BitVec 2
  xmap : BitVec 7
  ymap : BitVec 7
  variant : Variant
  deriving DecidableEq, Repr

/-- The sequencer's micro-state (R33). Outside a routine nothing reads it (log 5). -/
structure Micro where
  pattempt : Nat
  rattempt : Nat
  led : Nat
  force : Bool
  cur : Frame
  deriving DecidableEq, Repr

/-- A frame buffer (R50) as the bytes written so far, by rising offset. An offset that is not listed has never been written
and has no value (R34). -/
abbrev Memory := List Host.Cell

/-- The result codes (R230); the numbers are `resultCode` of Flags.lean. -/
inductive ResultCode where
  | ok
  | transportError
  | deviceNotResponding
  | busy
  | invalidArgument
  | illegalOp
  | offline
  deriving DecidableEq, Repr

/-- The direction of a control transfer (R120, R121). -/
inductive Direction where
  | out
  | inward
  deriving DecidableEq, Repr

/-- The request type of a control transfer; only CLASS occurs (R120, R121). -/
inductive RequestType where
  | class
  deriving DecidableEq, Repr

/-- The recipient of a control transfer; only INTERFACE occurs (R120, R121). -/
inductive Recipient where
  | interface
  deriving DecidableEq, Repr

/-- The shape of a control transfer (R120, R121). -/
structure Setup where
  dir : Direction
  type : RequestType
  recipient : Recipient
  request : Byte
  value : BitVec 16
  index : BitVec 16
  length : Nat
  deriving DecidableEq, Repr

/-- An event of the trace EV (R14, R36). -/
inductive Event where
  /-- WrReq(setup, F) (R120). -/
  | wrReq (setup : Setup) (f : Frame)
  /-- RdReq(setup) (R121). -/
  | rdReq (setup : Setup)
  /-- SleepReq(ms) (R124). -/
  | sleepReq (ms : Nat)
  /-- LogCk(computed, received) (R131). -/
  | logCk (computed received : Byte)
  /-- LogAnom(status) (R130). -/
  | logAnom (status : Byte)
  /-- Done(r) (R192). -/
  | done (r : ResultCode)
  deriving DecidableEq, Repr

/-- A move of the host (R273). A register read is no move: it is the function `regRead` of any state (R199). -/
inductive HostMove where
  /-- Present a word on the host command port; it is taken when the port is ready (R190). -/
  | word (w : HostWord)
  /-- Assert RESET with the given levels of SENSOR_GEN and THUMB_PRESENT (R260, R264). -/
  | reset (gen : Variant) (thumb : Bool)
  /-- Do nothing for one step of the other agents. -/
  | pause
  deriving DecidableEq, Repr

/-- The transport's answer to a write (R120). -/
inductive WriteAnswer where
  | accepted (n : Nat)
  | timeout
  deriving DecidableEq, Repr

/-- The transport's answer to a read (R121). -/
inductive ReadAnswer where
  | returned (bytes : List Byte)
  | timeout
  deriving DecidableEq, Repr

/-- The environment agents' moves to come (R6, R273; log 1). The k-th entry of `writes` (of `reads`) answers the k-th write
(read) request from here on; an empty tape is an agent that has not answered yet. -/
structure Env where
  host : List HostMove
  writes : List WriteAnswer
  reads : List ReadAnswer
  ticks : Nat
  deriving DecidableEq, Repr

/-- The state of the block: R20 to R36, with the parameters of R8 and the environment's tapes. -/
structure State where
  phase : Phase
  dirty : Bool
  claimCnt : BitVec 8
  conf : Conf
  thumbPresent : Bool
  fwver : BitVec 16
  result : BitVec 8
  pc : SeqPc
  micro : Micro
  tx : Memory
  rx : Memory
  trace : List Event
  params : Params
  env : Env
  deriving DecidableEq, Repr

/-- Why the machine stops with a fault. -/
inductive Fault where
  /-- Raised by a buffer read (`memRead`) of an offset nothing has written since reset: "a model must fault on it" (R34, I6).
  Safe: no step from any state ends in it, because every read follows a whole write of the buffer in the same step. -/
  | bufferUnwritten
  deriving DecidableEq, Repr

/-- Why the machine refuses to step. -/
inductive Refusal where
  /-- Raised by `exec` for an instruction that has no meaning yet; no arm does. Safe. -/
  | notModelled (mnemonic : String)
  /-- Raised by a buffer access outside 0..89: "never made by any rule of this spec; a model refuses one" (R51). Safe: no step
  from any state ends in it. -/
  | bufferRange
  /-- Raised when the sequencer is to send `cur` and `cur` is none of the frames the block builds (R77), which happens in no
  state a run from reset reaches (log 8). Safe. -/
  | notAFrame (why : Reject)
  deriving DecidableEq, Repr

/-- A step, an instruction or a routine of the block ends in one of the three outcomes. -/
abbrev Out := Host.Outcome State Fault Refusal

/-- The reset position of the sequencer: the first step starts the probe (R32, R58). -/
def SeqPc.entry : SeqPc := { routine := .init, stage := .probe, wait := .none }

/-- The position outside every routine: `SEQ_PC <- (NONE, -, NONE)` (R170). -/
def SeqPc.outside : SeqPc := { routine := .none, stage := .absent, wait := .none }

/-- CONFIG after reset (R262). -/
def Conf.afterReset (gen : Variant) (thumb : Bool) : Conf :=
  { freq := 3#8
    led0 := ledOn
    led1 := ledOn
    led2 := if thumb then ledOn else ledUnsupported
    xmap := 9#7
    ymap := 9#7
    variant := gen }

/-- The micro-state of a machine that runs no routine yet. The spec gives none (R262); these are the model's values (log 5). -/
def Micro.discarded : Micro :=
  { pattempt := 1, rattempt := 1, led := 0, force := false, cur := zeroFrame }

/-- The state right after a reset that samples `gen` and `thumb` (R260, R262), under given parameters and tapes. -/
def State.afterReset (gen : Variant) (thumb : Bool) (params : Params) (env : Env) : State :=
  { phase := .init
    dirty := true
    claimCnt := 0#8
    conf := Conf.afterReset gen thumb
    thumbPresent := thumb
    fwver := 0#16
    result := 0#8
    pc := SeqPc.entry
    micro := Micro.discarded
    tx := []
    rx := []
    trace := []
    params := params
    env := env }

/-- An environment that has not moved yet (log 1). -/
def Env.silent : Env := { host := [], writes := [], reads := [], ticks := 0 }

/-- The machine right after reset (R262). The OPEN parameters are free values (log 3, log 4). -/
def State.reset : State :=
  State.afterReset Config.sensorGen Config.thumbPresent Config.params Env.silent

end Sys2Proof.Machine
end

