-- ==== Sys2Proof/Machine/Flags.lean ====
section
/-! DEFINITION. The flags and codes of the block: PHASE and result codes, CLAIMED, DIRTY, and the STATUS and LEDLIST bytes
the host reads. -/

namespace Sys2Proof.Machine

/-- The code of PHASE (R20). -/
def phaseCode : Phase → BitVec 2
  | .init => 0#2
  | .idle => 1#2
  | .busy => 2#2
  | .offline => 3#2

/-- The code of VARIANT (R24). -/
def variantCode : Variant → BitVec 1
  | .legacy => 0#1
  | .extended => 1#1

/-- The result codes' numbers (R230). -/
def resultCode : ResultCode → BitVec 8
  | .ok => 0#8
  | .transportError => 1#8
  | .deviceNotResponding => 2#8
  | .busy => 3#8
  | .invalidArgument => 4#8
  | .illegalOp => 5#8
  | .offline => 6#8

/-- CLAIMED is `CLAIM_CNT != 0` (R23). -/
def claimed (s : State) : Bool := s.claimCnt != 0#8

/-- The host command port is ready exactly when PHASE is IDLE or OFFLINE (R190). -/
def portReady (s : State) : Bool := s.phase == .idle || s.phase == .offline

/-- DIRTY <- 1: every setter that succeeds (R22, R203). -/
def markDirty (s : State) : State := { s with dirty := true }

/-- DIRTY after a routine that ran the commit sequence: 0 on success, untouched on failure (R22, R169). -/
def settleDirty (r : ResultCode) (s : State) : State :=
  { s with dirty := if r = .ok then false else s.dirty }

/-- LED[i] (R27). There is no LED past id 2; it reads as Unsupported. -/
def ledState (c : Conf) : Nat → BitVec 2
  | 0 => c.led0
  | 1 => c.led1
  | 2 => c.led2
  | _ => ledUnsupported

/-- The enumerated LED list (R200): the ids that are not Unsupported, ascending. -/
def ledList (c : Conf) : List Nat :=
  (List.range ledCount).filter (fun i => ledState c i != ledUnsupported)

/-- One bit of LEDLIST (R200). -/
def ledListBit (c : Conf) (i : Nat) : BitVec 1 := BitVec.ofBool (ledState c i != ledUnsupported)

/-- LEDLIST (R37, R200): bit i set iff id i is in the LED list. -/
def ledListByte (c : Conf) : Byte := 0#5 ++ ledListBit c 2 ++ ledListBit c 1 ++ ledListBit c 0

/-- STATUS (R37): PHASE in bits 1..0, DIRTY bit 2, CLAIMED bit 3, VARIANT bit 4, THUMB_PRESENT bit 5, bits 7..6 zero. -/
def statusByte (s : State) : Byte :=
  0#2 ++ BitVec.ofBool s.thumbPresent ++ variantCode s.conf.variant ++ BitVec.ofBool (claimed s) ++
    BitVec.ofBool s.dirty ++ phaseCode s.phase

end Sys2Proof.Machine
end

