-- ==== Sys2Proof/Machine/Operands.lean ====
section
/-! DEFINITION. The operands: the domain of each host operand (R80), the resolution table and the value bytes the sequencer
computes for its frames (R140 to R145, R164, R167). -/

namespace Sys2Proof.Machine

/-- N(VARIANT) (R140). -/
def tableSize : Variant → Nat
  | .legacy => nLegacy
  | .extended => nExtended

/-- The resolution table ROM (R35, R140): entry k holds 100 * (k + 1). Off-table cursors follow the same formula (R146). -/
def res (k : Nat) : Nat := resBase + resStep * k

/-- The legacy resolution byte (R143): `((R/100) - 1) * 4`, truncated to one byte. -/
def legacyByte (r : Nat) : Byte := BitVec.ofNat 8 ((r / resStep - 1) * 4)

/-- The raw 16-bit resolution of the extended variant (R144). -/
def extWord (r : Nat) : BitVec 16 := BitVec.ofNat 16 r

/-- The encoder input X (R142). -/
def xRes (c : Conf) : Nat := res c.xmap.toNat

/-- The encoder input Y (R142). -/
def yRes (c : Conf) : Nat := res c.ymap.toNat

/-- The third value byte of an LED frame (R166): 1 if On, else 0; the reserved code 3 counts as not On (R38). -/
def onByte (st : BitVec 2) : Byte := if st = ledOn then 1#8 else 0#8

/-- The frequency byte of commit step 3 (R167); a reserved code has none (R26). -/
def freqByte (f : BitVec 8) : Option Byte :=
  if f = 1#8 then some 8#8
  else if f = 2#8 then some 2#8
  else if f = 3#8 then some 1#8
  else if f = 0#8 then some 1#8
  else none

/-- LED_SEL[i] (R28). -/
def selector (p : Params) : Nat → Selector
  | 0 => p.sel0
  | 1 => p.sel1
  | _ => p.sel2

/-- The LED id of SETLED is an index 0..2 (R80, R195). -/
def ledIdOk (a : Byte) : Bool := a.toNat < ledCount

/-- The requested LED state is Off or On (R80, R195). -/
def ledCodeOk (b : Byte) : Bool := b == 1#8 || b == 2#8

/-- The requested frequency is 125, 500 or 1000 Hz (R196). -/
def freqOk (a : Byte) : Bool := a == 1#8 || a == 2#8 || a == 3#8

/-- The axis is X or Y (R80, R197). -/
def axisOk (a : Byte) : Bool := a == 0#8 || a == 1#8

/-- The mapping index is an entry of the variant's table (R197). -/
def indexOk (v : Variant) (b : Byte) : Bool := b.toNat < tableSize v

end Sys2Proof.Machine
end

