-- ==== Sys2Proof/Machine/Ops.lean ====
section
/-! DEFINITION. The shared operations: the two frame buffers, the configuration writes, completion (this block's whole form of
an error: it has no trap, R238), the transport and timer requests, the retry policy and sendCommand, and RESET. -/

namespace Sys2Proof.Machine

/-! ## Frame buffers (R50, R51) -/

/-- The byte at an offset; none where nothing has been written (R34). -/
def Memory.readByte : Memory → Nat → Option Byte
  | [], _ => none
  | (c, b) :: m, a => if c = a then some b else Memory.readByte m a

/-- Set the byte at an offset, keeping the offsets rising. -/
def Memory.writeByte : Memory → Nat → Byte → Memory
  | [], a, b => [(a, b)]
  | (c, d) :: m, a, b =>
    if a < c then (a, b) :: (c, d) :: m
    else if a = c then (a, b) :: m
    else (c, d) :: Memory.writeByte m a b

/-- The n bytes from an offset on; none where one of them was never written. -/
def Memory.readBytes (m : Memory) (a : Nat) : Nat → Option (List Byte)
  | 0 => some []
  | n + 1 =>
    match Memory.readByte m a, Memory.readBytes m (a + 1) n with
    | some b, some bs => some (b :: bs)
    | _, _ => none

/-- Set the bytes from an offset on. -/
def Memory.writeBytes (m : Memory) (a : Nat) : List Byte → Memory
  | [] => m
  | b :: bs => Memory.writeBytes (Memory.writeByte m a b) (a + 1) bs

/-- Offsets strictly rising. -/
def Memory.rising : Memory → Bool
  | [] => true
  | [_] => true
  | (a, _) :: (c, d) :: m => decide (a < c) && Memory.rising ((c, d) :: m)

/-- The canonical form of a frame buffer: offsets strictly rising and inside 0..89. An unlisted offset reads as no value, so
no entry can equal what an unlisted one reads as. -/
def Memory.wf (m : Memory) : Bool := Memory.rising m && m.all (fun c => decide (c.1 < frameLen))

/-- The two buffers (R50). -/
inductive Buf where
  | tx
  | rx
  deriving DecidableEq, Repr

/-- The contents of a buffer. -/
def buffer (s : State) : Buf → Memory
  | .tx => s.tx
  | .rx => s.rx

/-- Replace the contents of a buffer. -/
def setBuffer (s : State) : Buf → Memory → State
  | .tx, m => { s with tx := m }
  | .rx, m => { s with rx := m }

/-- One byte of a buffer: what statements read memory with. -/
def peek (s : State) (b : Buf) (a : Nat) : Option Byte := Memory.readByte (buffer s b) a

/-- What a buffer access gives. -/
inductive Access (α : Type) where
  | ok (v : α)
  | unwritten
  | outOfRange
  deriving DecidableEq, Repr

/-- Go on with what an access gave, or stop as R34 and R51 say. -/
def Access.elim {α : Type} (x : Access α) (k : α → Out) : Out :=
  match x with
  | .ok v => k v
  | .unwritten => .fault .bufferUnwritten
  | .outOfRange => .refused .bufferRange

/-- MemRead(buf, a, n) (R51). -/
def memRead (b : Buf) (a n : Nat) (s : State) : Access (List Byte) :=
  if a + n ≤ frameLen then
    match Memory.readBytes (buffer s b) a n with
    | some v => .ok v
    | none => .unwritten
  else .outOfRange

/-- The 16-bit read of a big-endian field: `be16(MemRead(buf, a, 1), MemRead(buf, a+1, 1))` (R51, R53). -/
def memRead16 (b : Buf) (a : Nat) (s : State) : Access (BitVec 16) :=
  match memRead b a 1 s, memRead b (a + 1) 1 s with
  | .ok [hi], .ok [lo] => .ok (be16 hi lo)
  | .outOfRange, _ => .outOfRange
  | _, .outOfRange => .outOfRange
  | _, _ => .unwritten

/-- MemWrite(buf, a, n, v), n the length of v (R51). -/
def memWrite (b : Buf) (a : Nat) (v : List Byte) (s : State) : Access State :=
  if a + v.length ≤ frameLen then .ok (setBuffer s b (Memory.writeBytes (buffer s b) a v))
  else .outOfRange

/-! ## Configuration writes -/

/-- LED[i] <- c (R27). There is no LED past id 2. -/
def setLedState (i : Nat) (c : BitVec 2) (s : State) : State :=
  match i with
  | 0 => { s with conf := { s.conf with led0 := c } }
  | 1 => { s with conf := { s.conf with led1 := c } }
  | 2 => { s with conf := { s.conf with led2 := c } }
  | _ => s

/-- FREQ <- c (R26). -/
def setFreqCode (c : BitVec 8) (s : State) : State := { s with conf := { s.conf with freq := c } }

/-- XMAP <- k (R29). -/
def setXmap (k : BitVec 7) (s : State) : State := { s with conf := { s.conf with xmap := k } }

/-- YMAP <- k (R29). -/
def setYmap (k : BitVec 7) (s : State) : State := { s with conf := { s.conf with ymap := k } }

/-! ## Trace, completion, position -/

/-- Append an event to the trace (R36). -/
def emit (e : Event) (s : State) : State := { s with trace := s.trace ++ [e] }

/-- `complete(r)`: RESULT <- r and append Done(r) (R192). -/
def complete (r : ResultCode) (s : State) : State := emit (.done r) { s with result := resultCode r }

/-- SEQ_PC.stage <- st. -/
def setStage (st : Stage) (s : State) : State := { s with pc := { s.pc with stage := st } }

/-- SEQ_PC.wait <- w. -/
def setWait (w : Wait) (s : State) : State := { s with pc := { s.pc with wait := w } }

/-- CLAIM_CNT <- n (R23). -/
def setClaims (n : BitVec 8) (s : State) : State := { s with claimCnt := n }

/-- PHASE <- p (R20). -/
def setPhase (p : Phase) (s : State) : State := { s with phase := p }

/-- SEQ_PC <- p (R32). -/
def setPc (p : SeqPc) (s : State) : State := { s with pc := p }

/-! ## Port primitives (R120 to R125) -/

/-- The setup of a write (R120). -/
def writeSetup (p : Params) : Setup :=
  { dir := .out, type := .class, recipient := .interface, request := p.writeReq
    value := usbValue, index := usbIndex, length := frameLen }

/-- The setup of a read (R121). -/
def readSetup (p : Params) : Setup :=
  { dir := .inward, type := .class, recipient := .interface, request := p.readReq
    value := usbValue, index := usbIndex, length := frameLen }

/-- XferWrite(F): append WrReq and wait (R120). -/
def xferWrite (f : Frame) (s : State) : State := setWait .write (emit (.wrReq (writeSetup s.params) f) s)

/-- XferRead(90): append RdReq and wait (R121). -/
def xferRead (s : State) : State := setWait .read (emit (.rdReq (readSetup s.params)) s)

/-- Sleep(ms) for ms > 0: append SleepReq and wait (R124). -/
def sleepFor (ms : Nat) (s : State) : State := setWait .sleep (emit (.sleepReq ms) s)

/-- A write succeeds iff its answer is Accepted(90) (R122). -/
def writeSucceeds (a : WriteAnswer) : Bool := a == .accepted frameLen

/-- A read succeeds iff its answer is Returned(b) with |b| = 90; then b (R123). -/
def readBytesOf : ReadAnswer → Option (List Byte)
  | .returned b => if b.length = frameLen then some b else none
  | .timeout => none

/-! ## Retry policy (R127) -/

/-- What follows a failed attempt. -/
inductive Retry where
  | again
  | sleepFirst (ms : Nat)
  | exhausted
  deriving DecidableEq, Repr

/-- After failed attempt a: another one if a < attempts, a sleep between them unless the delay is 0 (R124, R127). -/
def afterFailure (attempts delay a : Nat) : Retry :=
  if a < attempts then (if delay = 0 then .again else .sleepFirst delay) else .exhausted

/-- The value of the read attempt counter (R33). -/
def setRattempt (n : Nat) (s : State) : State := { s with micro := { s.micro with rattempt := n } }

/-- The value of the probe attempt counter (R33). -/
def setPattempt (n : Nat) (s : State) : State := { s with micro := { s.micro with pattempt := n } }

/-- The commit LED loop index (R33). -/
def setLedIndex (n : Nat) (s : State) : State := { s with micro := { s.micro with led := n } }

/-- The force operand of the running commit (R33). -/
def setForce (b : Bool) (s : State) : State := { s with micro := { s.micro with force := b } }

/-- The frame being sent (R33). -/
def setCur (f : Frame) (s : State) : State := { s with micro := { s.micro with cur := f } }

/-! ## sendCommand, up to its first wait (R129) -/

/-- sendCommand(F): cur <- F, TX <- cur, TX[88] <- checksum(TX) (R106), XferWrite(TX). -/
def sendCommand (f : Frame) (s : State) : Out :=
  (memWrite .tx 0 f.bytes (setCur f s)).elim fun s =>
  (memRead .tx 0 frameLen s).elim fun bs =>
  (memWrite .tx ckOffset [checksum (frameOf bs)] s).elim fun s =>
  (memRead .tx 0 frameLen s).elim fun bs =>
  .next (xferWrite (frameOf bs) s)

/-- Log the response's checksum mismatch, if any (R131). -/
def logChecksum (f : Frame) (s : State) : State :=
  if ckOk f then s else emit (.logCk (checksum f) (decodeFields f).checksum) s

/-- Log the response's abnormal status, if any (R130). -/
def logStatus (f : Frame) (s : State) : State :=
  if statusNormal (decodeFields f).status then s else emit (.logAnom (decodeFields f).status) s

/-! ## RESET (R260, R261) -/

/-- The tapes after a reset: the answer to a request that is outstanding is dropped (R261). -/
def dropAbandoned (w : Wait) (e : Env) : Env :=
  match w with
  | .none => e
  | .write => { e with writes := e.writes.tail }
  | .read => { e with reads := e.reads.tail }
  | .sleep => { e with ticks := e.ticks - 1 }

/-- RESET, in one step, from any state (R260). -/
def applyReset (gen : Variant) (thumb : Bool) (s : State) : State :=
  State.afterReset gen thumb s.params (dropAbandoned s.pc.wait s.env)

/-! ## The host command port (R190, R191) -/

/-- The first check of every operation (R191): in OFFLINE the result is Offline whatever the word (R201). In INIT and BUSY
the port is not ready and the word is not taken: the host waits (R190; log 10). -/
def hostOp (s : State) (run : State → Out) : Out :=
  match s.phase with
  | .idle => run s
  | .offline => .next (complete .offline s)
  | .init => .next s
  | .busy => .next s

/-- An illegal word: IllegalOp, no other change (R81, R191). -/
def illegalWord (s : State) : Out := hostOp s fun s => .next (complete .illegalOp s)

end Sys2Proof.Machine
end

