-- ==== Sys2Proof/Machine/Frames.lean ====
section
/-! DEFINITION. The meanings of the five frames: the sequencer sends the frame with sendCommand (R129), up to the wait for
the transport's answer to the write (R13). -/

namespace Sys2Proof.Machine

/-- FWQUERY (R160). -/
def execFwquery (s : State) : Out := sendCommand fwqueryFrame s

/-- RESSET_LEGACY (R143). -/
def execRessetLegacy (vx vy : Byte) (s : State) : Out := sendCommand (ressetLegacyFrame vx vy) s

/-- RESSET_EXT (R144). -/
def execRessetExt (x y : BitVec 16) (s : State) : Out := sendCommand (ressetExtFrame x y) s

/-- LEDSET (R166). -/
def execLedset (s0 s1 on : Byte) (s : State) : Out := sendCommand (ledsetFrame s0 s1 on) s

/-- FREQSET (R167). -/
def execFreqset (fcode : Byte) (s : State) : Out := sendCommand (freqsetFrame fcode) s

end Sys2Proof.Machine
end

