-- ==== Sys2Proof/Machine/Sequencer.lean ====
section
/-! DEFINITION. The sequencer's routines (43_sequencer.md) and the rest of sendCommand (R129), cut at the waits: each
definition runs from an answer, or a start, to the next request or completion (R13). -/

namespace Sys2Proof.Machine

/-! ## Ends of the routines -/

/-- The end of init() (R170, R171, R172). -/
def initFinish (r : ResultCode) (s : State) : Out :=
  let s := setClaims 0#8 (settleDirty r s)
  let s := setPhase (if r = .ok then .idle else .offline) s
  .next (complete r (setPc SeqPc.outside s))

/-- The end of a COMMIT that ran its sequence (R198). -/
def commitFinish (r : ResultCode) (s : State) : Out :=
  let s := setPhase .idle (settleDirty r s)
  .next (complete r (setPc SeqPc.outside s))

/-- commitSeq returns r to the routine that called it (R170, R198). -/
def commitReturn (r : ResultCode) (s : State) : Out :=
  match s.pc.routine with
  | .init => initFinish r s
  | .commit => commitFinish r s
  | .none => .next s

/-! ## commitSeq (R164) -/

/-- RESENCODE and its send (R145, R165): the active variant's frame for the current cursors. -/
def sendResolution (s : State) : Out :=
  match s.conf.variant with
  | .legacy => execRessetLegacy (legacyByte (xRes s.conf)) (legacyByte (yRes s.conf)) s
  | .extended => execRessetExt (extWord (xRes s.conf)) (extWord (yRes s.conf)) s

/-- commitSeq from its start: step 1 (R165). -/
def commitSeq (s : State) : Out := sendResolution (setStage .res s)

/-- Step 3 (R167): one FREQSET frame, or InvalidArgument on a reserved code before any frame is sent. -/
def enterFreq (s : State) : Out :=
  let s := setStage .freq s
  match freqByte s.conf.freq with
  | some c => execFreqset c s
  | none => commitReturn .invalidArgument s

/-- Step 2 from LED id `i` on (R166): send the first supported LED, or go to step 3 when none is left. -/
def ledLoop (i : Nat) (s : State) : Out :=
  match (ledList s.conf).find? (fun k => decide (i ≤ k)) with
  | some k =>
    let sel := selector s.params k
    execLedset sel.s0 sel.s1 (onByte (ledState s.conf k)) (setLedIndex k s)
  | none => enterFreq (setLedIndex ledCount s)

/-! ## probe (R161) and init (R170) -/

/-- probe() from its start (R161). -/
def probeStart (s : State) : Out := execFwquery (setPattempt 1 (setStage .probe s))

/-- init() from its start: the claim is held and the probe runs (R170). -/
def initStart (s : State) : Out := probeStart (setClaims 1#8 s)

/-- The probe succeeded: the forced commit follows (R170). -/
def initProbed (s : State) : Out := commitSeq (setForce true s)

/-- A probe attempt failed: sleep and try again, or DeviceNotResponding after the last (R161, R163). -/
def probeFailed (s : State) : Out :=
  match afterFailure probeAttempts probeDelayMs s.micro.pattempt with
  | .sleepFirst ms => .next (sleepFor ms s)
  | .again => execFwquery (setPattempt (s.micro.pattempt + 1) s)
  | .exhausted => initFinish .deviceNotResponding s

/-- The timer's answer: the next attempt (R161). -/
def onSleepDone (s : State) : Out := execFwquery (setPattempt (s.micro.pattempt + 1) s)

/-- sendCommand returned OK to the probe: success iff the high byte RX[8] of the version is not 0 (R161, R162). -/
def probeAnswered (s : State) : Out :=
  (memRead16 .rx 8 s).elim fun v =>
  if hi8 v = 0#8 then probeFailed s else initProbed { s with fwver := v }

/-! ## The rest of sendCommand (R129) -/

/-- sendCommand returns r to the stage that called it (R161, R164, R168). -/
def commandReturn (r : ResultCode) (s : State) : Out :=
  match s.pc.stage with
  | .probe => if r = .ok then probeAnswered s else probeFailed s
  | .res => if r = .ok then ledLoop 0 (setStage .led s) else commitReturn r s
  | .led => if r = .ok then ledLoop (s.micro.led + 1) s else commitReturn r s
  | .freq => commitReturn r s
  | .absent => .next s

/-- The answer to a write (R122, R129): the first read attempt, or TransportError with no read and no retry. -/
def onWriteAnswer (a : WriteAnswer) (s : State) : Out :=
  if writeSucceeds a then .next (xferRead (setRattempt 1 s))
  else commandReturn .transportError s

/-- The checks on a response (R129): log a bad checksum, then an abnormal status; the call succeeds (R130, R131). -/
def checkResponse (s : State) : Out :=
  (memRead .rx 0 frameLen s).elim fun bs =>
  let f := frameOf bs
  commandReturn .ok (logStatus f (logChecksum f s))

/-- The answer to a read (R123, R128, R129). -/
def onReadAnswer (a : ReadAnswer) (s : State) : Out :=
  match readBytesOf a with
  | some b => (memWrite .rx 0 b s).elim checkResponse
  | none =>
    match afterFailure readAttempts readDelayMs s.micro.rattempt with
    | .again => .next (xferRead (setRattempt (s.micro.rattempt + 1) s))
    | .sleepFirst ms => .next (sleepFor ms s)
    | .exhausted => commandReturn .transportError s

end Sys2Proof.Machine
end

