-- ==== Sys2Proof/Machine/HostOps.lean ====
section
/-! DEFINITION. The meanings of the six host operations (44_host_ops.md), checks in the order of R191. -/

namespace Sys2Proof.Machine

/-- ACQUIRE (R193). -/
def execAcquire (s : State) : Out :=
  hostOp s fun s =>
    if s.claimCnt = claimMax then .next (complete .busy s)
    else .next (complete .ok (setClaims (s.claimCnt + 1#8) s))

/-- RELEASE (R194). -/
def execRelease (s : State) : Out :=
  hostOp s fun s =>
    if s.claimCnt = 0#8 then .next (complete .invalidArgument s)
    else .next (complete .ok (setClaims (s.claimCnt - 1#8) s))

/-- SETLED A, B (R195). -/
def execSetled (a b : Byte) (s : State) : Out :=
  hostOp s fun s =>
    if !claimed s then .next (complete .busy s)
    else if !ledIdOk a then .next (complete .invalidArgument s)
    else if ledState s.conf a.toNat = ledUnsupported then .next (complete .invalidArgument s)
    else if !ledCodeOk b then .next (complete .invalidArgument s)
    else .next (complete .ok (markDirty (setLedState a.toNat (b.setWidth 2) s)))

/-- SETFREQ A (R196). -/
def execSetfreq (a : Byte) (s : State) : Out :=
  hostOp s fun s =>
    if !claimed s then .next (complete .busy s)
    else if !freqOk a then .next (complete .invalidArgument s)
    else .next (complete .ok (markDirty (setFreqCode a s)))

/-- SETRES A, B (R197). -/
def execSetres (a b : Byte) (s : State) : Out :=
  hostOp s fun s =>
    if !claimed s then .next (complete .busy s)
    else if !axisOk a then .next (complete .invalidArgument s)
    else if !indexOk s.conf.variant b then .next (complete .invalidArgument s)
    else if a = 0#8 then .next (complete .ok (markDirty (setXmap (b.setWidth 7) s)))
    else .next (complete .ok (markDirty (setYmap (b.setWidth 7) s)))

/-- COMMIT force (R198), up to the first wait of its sequence. -/
def execCommit (force : Bool) (s : State) : Out :=
  hostOp s fun s =>
    if !claimed s then .next (complete .busy s)
    else if !force && !s.dirty then .next (complete .ok s)
    else
      commitSeq (setForce force (setPc { routine := .commit, stage := .res, wait := .none } (setPhase .busy s)))

end Sys2Proof.Machine
end

