-- ==== Sys2Proof/Machine/Dispatch.lean ====
section
/-! DEFINITION. The dispatch of an instruction to its meaning, one arm per constructor. -/

namespace Sys2Proof.Machine

def exec (i : Instr) (s : State) : Host.Outcome State Fault Refusal :=
  match i with
  | .fwquery => Sys2Proof.Machine.execFwquery s
  | .ressetLegacy vx vy => Sys2Proof.Machine.execRessetLegacy vx vy s
  | .ressetExt x y => Sys2Proof.Machine.execRessetExt x y s
  | .ledset s0 s1 on => Sys2Proof.Machine.execLedset s0 s1 on s
  | .freqset fcode => Sys2Proof.Machine.execFreqset fcode s
  | .acquire => Sys2Proof.Machine.execAcquire s
  | .release => Sys2Proof.Machine.execRelease s
  | .setled a b => Sys2Proof.Machine.execSetled a b s
  | .setfreq a => Sys2Proof.Machine.execSetfreq a s
  | .setres a b => Sys2Proof.Machine.execSetres a b s
  | .commit force => Sys2Proof.Machine.execCommit force s

end Sys2Proof.Machine
end

