-- ==== Sys2Proof/Machine/Fetch.lean ====
section
/-! DEFINITION. Where a step finds what to run: a word on the host command port, an answer of the transport or the timer, or
the sequencer's own next frame; and the place the fetch of a given instruction word is put. -/

namespace Sys2Proof.Machine

/-- The block takes a host word (R190): a legal word is executed, an illegal one completes with IllegalOp (R81). -/
def takeWord (w : HostWord) (s : State) : Out :=
  match decodeHost w with
  | .ok i => exec i s
  | .error _ => illegalWord s

/-- The sequencer at a position with no wait, inside a routine: at the reset position it starts init() (R32, R170), elsewhere
it sends the frame in `cur` (R129; log 8). -/
def runPosition (s : State) : Out :=
  if s.pc = SeqPc.entry then initStart s
  else
    match decodeFrame s.micro.cur with
    | .ok i => exec i s
    | .error e => .refused (.notAFrame e)

/-- One move of the sequencer, the transport and the timer: the sequencer goes on from the answer it waits for, if it has come
(R120, R121, R124); while it has not, the block waits (I9). Outside a routine the sequencer has nothing to do. -/
def sequencerMove (s : State) : Out :=
  match s.pc.routine with
  | .none => .next s
  | _ =>
    match s.pc.wait with
    | .none => runPosition s
    | .write =>
      match s.env.writes with
      | [] => .next s
      | a :: rest => onWriteAnswer a { s with env := { s.env with writes := rest } }
    | .read =>
      match s.env.reads with
      | [] => .next s
      | a :: rest => onReadAnswer a { s with env := { s.env with reads := rest } }
    | .sleep =>
      match s.env.ticks with
      | 0 => .next s
      | n + 1 => onSleepDone { s with env := { s.env with ticks := n } }

/-- The state with the host's first move taken off its tape. -/
def dropHostMove (s : State) : State := { s with env := { s.env with host := s.env.host.tail } }

/-- One step of the whole machine. The host's next move decides: RESET acts from any state (R260), a word is taken when the
port is ready and waits when it is not (R190), a pause gives the step to the other agents. -/
def machineStep (s : State) : Out :=
  match s.env.host with
  | .reset gen thumb :: _ => .next (applyReset gen thumb (dropHostMove s))
  | .pause :: _ => sequencerMove (dropHostMove s)
  | .word w :: _ => if portReady s then takeWord w (dropHostMove s) else sequencerMove s
  | [] => sequencerMove s

/-- The stage at which the sequencer sends a frame (R161, R165 to R167). -/
def stageOf : Instr → Stage
  | .fwquery => .probe
  | .ressetLegacy _ _ => .res
  | .ressetExt _ _ => .res
  | .ledset _ _ _ => .led
  | _ => .freq

/-- The state whose next step sends the frame f, of kind i: FWQUERY is what init() sends first, the others are sent by a
running COMMIT; `cur` holds the frame and a host that pauses lets the sequencer move. -/
def placeFrame (i : Instr) (f : Frame) (s : State) : State :=
  let s := { s with env := { s.env with host := .pause :: s.env.host } }
  let s := setCur f s
  match stageOf i with
  | .probe => setPc SeqPc.entry (setPhase .init s)
  | st => setPc { routine := .commit, stage := st, wait := .none } (setPhase .busy s)

/-- The state whose next step takes the word w from the host command port. -/
def placeWord (w : HostWord) (s : State) : State :=
  let s := { s with env := { s.env with host := .word w :: s.env.host } }
  if portReady s then s else setPc SeqPc.outside (setPhase .idle s)

/-- The state whose next step fetches the instruction a table word stands for. -/
def placeTableWord (w : HostWord) (s : State) : State :=
  match tableWire w with
  | .host w => placeWord w s
  | .frame f =>
    match decodeFrame f with
    | .ok i => placeFrame i f s
    | .error _ => placeWord w s

end Sys2Proof.Machine
end

