-- ==== Sys2Proof/Machine/Step.lean ====
section
/-! DEFINITION. The step of the machine, and the state whose next step runs a given instruction word. -/

namespace Sys2Proof.Machine

/-- One step of the machine (R13). -/
def step (s : State) : Host.Outcome State Fault Refusal := machineStep s

/-- s with the instruction of a table word placed where the next step fetches it. -/
def State.withFetchWord (s : State) (nbits w : Nat) : State :=
  placeTableWord (BitVec.ofNat 32 (w % 2 ^ nbits)) s

end Sys2Proof.Machine
end

