-- ==== Sys2Proof/Machine/Assembler.lean ====
section
/-! DEFINITION. The host-program syntax (R83), the pseudo-operations (R84) and the frame listing (R85). A line is a list of
characters, so that the kernel can run the assembler on it. -/

namespace Sys2Proof.Machine

/-- The pseudo-operations (R84). -/
inductive Pseudo where
  | ledon (id : Byte)
  | ledoff (id : Byte)
  | setresxy (index : Byte)
  deriving DecidableEq, Repr

/-- What a pseudo-operation expands to (R84). -/
def expandPseudo : Pseudo → List Instr
  | .ledon id => [.setled id 2#8]
  | .ledoff id => [.setled id 1#8]
  | .setresxy index => [.setres 0#8 index, .setres 1#8 index]

/-- The listed frame (R85): the given ids, value bytes and checksum byte, every other byte 0. -/
def listedFrame (cmd req : BitVec 16) (v : Values) (ck : Byte) : Frame :=
  setByte (encodeBody cmd req v) ckOffset ck

/-- The text without spaces at its ends. -/
def trimText (cs : List Char) : List Char :=
  ((cs.dropWhile (· == ' ')).reverse.dropWhile (· == ' ')).reverse

/-- The parts of a text between commas. -/
def splitCommas : List Char → List (List Char)
  | [] => [[]]
  | c :: cs =>
    if c = ',' then [] :: splitCommas cs
    else
      match splitCommas cs with
      | [] => [[c]]
      | p :: ps => (c :: p) :: ps

/-- The value of a digit in a base up to 16. -/
def digitValue (base : Nat) (c : Char) : Option Nat :=
  let d :=
    if '0' ≤ c ∧ c ≤ '9' then c.toNat - '0'.toNat
    else if 'a' ≤ c ∧ c ≤ 'f' then c.toNat - 'a'.toNat + 10
    else if 'A' ≤ c ∧ c ≤ 'F' then c.toNat - 'A'.toNat + 10
    else 16
  if d < base then some d else none

/-- The number some digits write, after a number already read. -/
def digitsFrom (base acc : Nat) : List Char → Option Nat
  | [] => some acc
  | c :: cs =>
    match digitValue base c with
    | some d => digitsFrom base (acc * base + d) cs
    | none => none

/-- A number in decimal or 0x-hex that fits an 8-bit operand (R78, R83). -/
def numberOperand (cs : List Char) : Option Byte :=
  let n :=
    match cs with
    | [] => none
    | ['0', 'x'] => none
    | '0' :: 'x' :: hex => digitsFrom 16 0 hex
    | _ => digitsFrom 10 0 cs
  match n with
  | some v => if v < 256 then some (BitVec.ofNat 8 v) else none
  | none => none

/-- The operand names of R83, each list with the code it stands for. -/
def stateNames : List (List Char × Byte) := [(['O', 'F', 'F'], 1#8), (['O', 'N'], 2#8)]
/-- Frequency names (R83). -/
def freqNames : List (List Char × Byte) :=
  [(['F', '1', '2', '5'], 1#8), (['F', '5', '0', '0'], 2#8), (['F', '1', '0', '0', '0'], 3#8),
    (['F', 'U', 'N', 'K', 'N', 'O', 'W', 'N'], 0#8)]
/-- Axis names (R83). -/
def axisNames : List (List Char × Byte) := [(['X'], 0#8), (['Y'], 1#8)]

/-- An operand written by one of some names or as a number. -/
def operandOf (names : List (List Char × Byte)) (cs : List Char) : Option Byte :=
  match names.find? (fun p => p.1 == cs) with
  | some p => some p.2
  | none => numberOperand cs

/-- A mnemonic with two operands. -/
def twoOperands (a b : List (List Char × Byte)) (build : Byte → Byte → List Instr) :
    List (List Char) → Option (List Instr)
  | [x, y] =>
    match operandOf a x, operandOf b y with
    | some u, some v => some (build u v)
    | _, _ => none
  | _ => none

/-- A mnemonic with one operand. -/
def oneOperand (a : List (List Char × Byte)) (build : Byte → List Instr) :
    List (List Char) → Option (List Instr)
  | [x] =>
    match operandOf a x with
    | some u => some (build u)
    | none => none
  | _ => none

/-- One line of a host program (R83, R84): the operations it stands for; none for a line that is no such line. -/
def assembleLine (line : List Char) : Option (List Instr) :=
  let t := trimText line
  let mnemonic := t.takeWhile (· != ' ')
  let rest := trimText (t.dropWhile (· != ' '))
  let ops := if rest = [] then [] else (splitCommas rest).map trimText
  if mnemonic = ['A', 'C', 'Q', 'U', 'I', 'R', 'E'] then
    (if ops = [] then some [.acquire] else none)
  else if mnemonic = ['R', 'E', 'L', 'E', 'A', 'S', 'E'] then
    (if ops = [] then some [.release] else none)
  else if mnemonic = ['S', 'E', 'T', 'L', 'E', 'D'] then
    twoOperands [] stateNames (fun a b => [.setled a b]) ops
  else if mnemonic = ['S', 'E', 'T', 'F', 'R', 'E', 'Q'] then
    oneOperand freqNames (fun a => [.setfreq a]) ops
  else if mnemonic = ['S', 'E', 'T', 'R', 'E', 'S'] then
    twoOperands axisNames [] (fun a b => [.setres a b]) ops
  else if mnemonic = ['C', 'O', 'M', 'M', 'I', 'T'] then
    (if ops = [] then some [.commit false]
     else if ops = [['F', 'O', 'R', 'C', 'E']] then some [.commit true] else none)
  else if mnemonic = ['L', 'E', 'D', 'O', 'N'] then
    oneOperand [] (fun a => expandPseudo (.ledon a)) ops
  else if mnemonic = ['L', 'E', 'D', 'O', 'F', 'F'] then
    oneOperand [] (fun a => expandPseudo (.ledoff a)) ops
  else if mnemonic = ['S', 'E', 'T', 'R', 'E', 'S', 'X', 'Y'] then
    oneOperand [] (fun a => expandPseudo (.setresxy a)) ops
  else none

/-- The host word of a host operation (R83): what its encoding puts on the command port. -/
def hostWordsOf (is : List Instr) : List HostWord :=
  is.filterMap fun i =>
    match encode i with
    | .host w => some w
    | .frame _ => none

/-- A host program: one operation per line (R83). -/
def assembleProgram (lines : List (List Char)) : Option (List HostWord) :=
  match lines with
  | [] => some []
  | l :: ls =>
    match assembleLine l, assembleProgram ls with
    | some is, some ws => some (hostWordsOf is ++ ws)
    | _, _ => none

end Sys2Proof.Machine
end

