-- ==== Sys2Proof/Machine/Registers.lean ====
section
/-! DEFINITION. The host-readable register map (R37) and its read port (R199): a function of the state, so available in every
PHASE, with no side effect and no event. -/

namespace Sys2Proof.Machine

/-- RegRead(addr) (R37, R199). Reserved bits and addresses 0x0C..0xFF read 0. -/
def regRead (addr : Byte) (s : State) : Byte :=
  match addr.toNat with
  | 0x00 => statusByte s
  | 0x01 => s.claimCnt
  | 0x02 => s.result
  | 0x03 => s.conf.freq
  | 0x04 => s.conf.led0.setWidth 8
  | 0x05 => s.conf.led1.setWidth 8
  | 0x06 => s.conf.led2.setWidth 8
  | 0x07 => s.conf.xmap.setWidth 8
  | 0x08 => s.conf.ymap.setWidth 8
  | 0x09 => hi8 s.fwver
  | 0x0A => lo8 s.fwver
  | 0x0B => ledListByte s.conf
  | _ => 0#8

end Sys2Proof.Machine
end

