-- ==== Sys2Proof/Safety.lean ====
section
/-! DEFINITION. What a good state and a good run are, in the terms the claims use: the position agrees with PHASE, counters
and registers hold only their listed values, every event of the trace is one the spec allows, and how many answers a routine
can still consume. -/

namespace Sys2Proof.Safety

open Sys2Proof.Machine

/-- SEQ_PC agrees with PHASE (R20, R32): NONE exactly in IDLE and OFFLINE; INIT in INIT, at the reset position or waiting;
COMMIT in BUSY, waiting for a transfer of one of its three stages; only the probe sleeps. -/
def positionOk (s : State) : Bool :=
  match s.phase with
  | .idle => s.pc == SeqPc.outside
  | .offline => s.pc == SeqPc.outside
  | .init =>
    s.pc == SeqPc.entry ||
      (s.pc.routine == .init && s.pc.stage != .absent && s.pc.wait != .none &&
        (s.pc.wait != .sleep || s.pc.stage == .probe))
  | .busy =>
    s.pc.routine == .commit && (s.pc.stage == .res || s.pc.stage == .led || s.pc.stage == .freq) &&
      (s.pc.wait == .write || s.pc.wait == .read)

/-- The micro-state's ranges where it is valid (R33): pattempt 1..5 in a running probe, and below 5 while it sleeps; rattempt
1..3 during a read; led the id of the LED being sent, and 3 after the loop. -/
def countersOk (s : State) : Bool :=
  (s.pc.stage != .probe || s.pc.wait == .none || (decide (1 ≤ s.micro.pattempt) && decide (s.micro.pattempt ≤ 5))) &&
  (s.pc.wait != .sleep || decide (s.micro.pattempt ≤ 4)) &&
  (s.pc.wait != .read || (decide (1 ≤ s.micro.rattempt) && decide (s.micro.rattempt ≤ 3))) &&
  (s.pc.stage != .led || decide (s.micro.led ≤ 2)) &&
  (s.pc.stage != .freq || decide (s.micro.led = 3))

/-- The claim (R23, R170, R171, R241): initialization holds exactly one while it runs and none before and after a failure; a
COMMIT runs only claimed. -/
def claimOk (s : State) : Bool :=
  match s.phase with
  | .init => if s.pc == SeqPc.entry then s.claimCnt == 0#8 else s.claimCnt == 1#8
  | .offline => s.claimCnt == 0#8
  | .busy => s.claimCnt != 0#8
  | .idle => true

/-- CONFIG holds only the values its rules list (R26, R27, R29, R38). -/
def confOk (s : State) : Bool :=
  (s.conf.freq == 1#8 || s.conf.freq == 2#8 || s.conf.freq == 3#8) &&
  (s.conf.led0 == ledOff || s.conf.led0 == ledOn) && (s.conf.led1 == ledOff || s.conf.led1 == ledOn) &&
  ((s.thumbPresent && (s.conf.led2 == ledOff || s.conf.led2 == ledOn)) ||
    (!s.thumbPresent && s.conf.led2 == ledUnsupported)) &&
  decide (s.conf.xmap.toNat < tableSize s.conf.variant) && decide (s.conf.ymap.toNat < tableSize s.conf.variant)

/-- DIRTY stays 1 until an initialization has succeeded (R22, R171). -/
def dirtyOk (s : State) : Bool :=
  match s.phase with
  | .init => s.dirty
  | .offline => s.dirty
  | _ => true

/-- FWVER is 0 or has a high byte that is not 0 (R30), and it has been probed once the probe is over with success (R161). -/
def versionOk (s : State) : Bool :=
  (s.fwver == 0#16 || hi8 s.fwver != 0#8) &&
  (match s.phase with
   | .idle => hi8 s.fwver != 0#8
   | .busy => hi8 s.fwver != 0#8
   | .init => s.pc.stage == .probe || hi8 s.fwver != 0#8
   | .offline => true)

/-- RESULT holds a result code (R31, R230). -/
def resultOk (s : State) : Bool := decide (s.result.toNat ≤ 6)

/-- The buffers have their canonical form (R50). -/
def buffersOk (s : State) : Bool := s.tx.wf && s.rx.wf

/-- The state invariant: what every step keeps. -/
def inv (s : State) : Bool :=
  positionOk s && countersOk s && claimOk s && confOk s && dirtyOk s && versionOk s && resultOk s && buffersOk s

/-- An event the block may append (R72, R74, R120, R121, R124): a written frame is the encoding of a well-formed frame
instruction under the write setup, a read has the read setup, a sleep is the probe's. -/
def eventOk (p : Params) : Event → Bool
  | .wrReq setup f =>
    setup == writeSetup p && checksum f == byteAt f 88 &&
      (match decodeFrame f with
       | .ok i => i.wf && encode i == .frame f
       | .error _ => false)
  | .rdReq setup => setup == readSetup p
  | .sleepReq ms => ms == 250
  | .logCk computed received => computed != received
  | .logAnom status => !statusNormal status
  | .done _ => true

/-- Every event of the trace is one the block may append. -/
def traceOk (s : State) : Bool := s.trace.all (eventOk s.params)

/-- The last event is the one SEQ_PC says (R32, R192): in a wait the request waited for, outside every routine the completion that
RESULT records, at the reset position none. -/
def lastEventOk (s : State) : Bool :=
  match s.pc.wait, s.trace.getLast? with
  | .write, some (.wrReq _ f) => f == withChecksum s.micro.cur
  | .read, some (.rdReq _) => true
  | .sleep, some (.sleepReq _) => true
  | .none, some (.done r) => s.pc == SeqPc.outside && s.result == resultCode r
  | .none, none => s.pc == SeqPc.entry
  | _, _ => false

/-- The event is a request, which the block then waits for (R120, R121, R124). -/
def isRequest : Event → Bool
  | .wrReq _ _ => true
  | .rdReq _ => true
  | .sleepReq _ => true
  | .logCk _ _ => false
  | .logAnom _ => false
  | .done _ => false

/-- The step from s to t took the answer s waits for off its tape, and no other answer. -/
def answerTaken (s t : State) : Prop :=
  match s.pc.wait with
  | .none => False
  | .write => (∃ a, s.env.writes = a :: t.env.writes) ∧ t.env.reads = s.env.reads ∧ t.env.ticks = s.env.ticks
  | .read => (∃ a, s.env.reads = a :: t.env.reads) ∧ t.env.writes = s.env.writes ∧ t.env.ticks = s.env.ticks
  | .sleep => s.env.ticks = t.env.ticks + 1 ∧ t.env.writes = s.env.writes ∧ t.env.reads = s.env.reads

/-- A routine starts in the step from s to t, so that no request is outstanding: initialization at the reset position, a COMMIT
in IDLE (R32, R198). -/
def routineStarts (s t : State) : Prop := s.pc = SeqPc.entry ∨ (s.phase = .idle ∧ t.phase = .busy)

/-- The frames written, in order. -/
def framesWritten : List Event → List Frame
  | [] => []
  | .wrReq _ f :: es => f :: framesWritten es
  | _ :: es => framesWritten es

/-- The answer the block waits for has come (R272, R273): the next step of the sequencer is no waiting. -/
def answerReady (s : State) : Bool :=
  match s.pc.wait with
  | .none => true
  | .write => !s.env.writes.isEmpty
  | .read => !s.env.reads.isEmpty
  | .sleep => decide (0 < s.env.ticks)

/-- The host does not assert RESET at this step. -/
def noReset (s : State) : Bool :=
  match s.env.host with
  | .reset _ _ :: _ => false
  | _ => true

/-- How many answers one sendCommand can still consume: one write and three reads at most (R271). -/
def transfersLeft (s : State) : Nat :=
  match s.pc.wait with
  | .write => 4
  | .read => 4 - s.micro.rattempt
  | _ => 0

/-- How many steps a running routine can still take, waiting apart (R271): at most 4 for each sendCommand, five of which a
commit has at most, and one sleep before each further probe attempt. -/
def stepsLeft (s : State) : Nat :=
  match s.phase with
  | .idle => 0
  | .offline => 0
  | _ =>
    if s.pc == SeqPc.entry then 45
    else
      match s.pc.stage with
      | .absent => 0
      | .probe => transfersLeft s + 5 * (5 - s.micro.pattempt) + 20
      | .res => transfersLeft s + 16
      | .led => transfersLeft s + 4 * (3 - s.micro.led)
      | .freq => transfersLeft s

/-! ## The terms of the statements about frames and events -/

/-- Byte i of the frame with the given ids and value bytes, written out from the layout of R71, R72 and the checksum of R101;
no definition of the codec is used. -/
def frameByte (cmd req : BitVec 16) (v : Values) (i : Nat) : Byte :=
  if i = 4 then cmd.extractLsb' 8 8
  else if i = 5 then cmd.extractLsb' 0 8
  else if i = 6 then req.extractLsb' 8 8
  else if i = 7 then req.extractLsb' 0 8
  else if i = 8 then v.v0
  else if i = 9 then v.v1
  else if i = 10 then v.v2
  else if i = 11 then v.v3
  else if i = 12 then v.v4
  else if i = 88 then
    cmd.extractLsb' 8 8 ^^^ cmd.extractLsb' 0 8 ^^^ req.extractLsb' 8 8 ^^^ req.extractLsb' 0 8 ^^^
      v.v0 ^^^ v.v1 ^^^ v.v2 ^^^ v.v3 ^^^ v.v4
  else 0#8

/-- The frame has the given ids and value bytes, the right checksum, and 0 everywhere else (R72). -/
def isFrame (cmd req : BitVec 16) (v : Values) (f : Frame) : Prop :=
  ∀ i, i < 90 → byteAt f i = frameByte cmd req v i

/-- The setup of a write (R120). -/
def writeShape (request : Byte) : Setup :=
  { dir := .out, type := .class, recipient := .interface, request := request
    value := 0x0300#16, index := 0#16, length := 90 }

/-- The setup of a read (R121). -/
def readShape (request : Byte) : Setup :=
  { dir := .inward, type := .class, recipient := .interface, request := request
    value := 0x0300#16, index := 0#16, length := 90 }

/-- Every host-visible register and every parameter is unchanged. -/
def sameRegisters (s t : State) : Prop :=
  t.phase = s.phase ∧ t.dirty = s.dirty ∧ t.claimCnt = s.claimCnt ∧ t.conf = s.conf ∧
    t.thumbPresent = s.thumbPresent ∧ t.fwver = s.fwver ∧ t.result = s.result ∧ t.params = s.params

/-- The transport and timer tapes are unchanged. -/
def sameTapes (s t : State) : Prop :=
  t.env.writes = s.env.writes ∧ t.env.reads = s.env.reads ∧ t.env.ticks = s.env.ticks

/-- Every byte of both buffers is unchanged. -/
def sameBuffers (s t : State) : Prop := ∀ b a, peek t b a = peek s b a

/-- TX holds the frame f in its 90 bytes, and no other byte of a buffer changed. -/
def loadsTx (f : Frame) (s t : State) : Prop :=
  (∀ a, peek t .tx a = if a < 90 then some (byteAt f a) else peek s .tx a) ∧
    ∀ a, peek t .rx a = peek s .rx a

/-- RX holds the 90 bytes bs, and no other byte of RX changed. -/
def loadsRx (bs : List Byte) (s t : State) : Prop :=
  ∀ a, peek t .rx a = if a < 90 then bs[a]? else peek s .rx a

/-- The log events of a response (R129, R130, R131): a checksum mismatch, then an abnormal status. -/
def responseLogs (f : Frame) : List Event :=
  (if checksum f = byteAt f 88 then [] else [.logCk (checksum f) (byteAt f 88)]) ++
    (if byteAt f 0 = 0#8 ∨ byteAt f 0 = 1#8 ∨ byteAt f 0 = 2#8 then [] else [.logAnom (byteAt f 0)])

/-- A read answer that is a success: exactly 90 bytes (R123). -/
def fullRead (a : ReadAnswer) : Prop := ∃ bs, a = .returned bs ∧ bs.length = 90

/-- The exchange under way ends in a TransportError with this answer (R129): the write was not accepted whole, or the third
read attempt failed. -/
def exchangeFails (s : State) : Prop :=
  (s.pc.wait = .write ∧ ∃ a rest, s.env.writes = a :: rest ∧ a ≠ .accepted 90) ∨
    (s.pc.wait = .read ∧ 3 ≤ s.micro.rattempt ∧ ∃ a rest, s.env.reads = a :: rest ∧ ¬fullRead a)

/-- The values of the RESSET frame for a configuration (R143, R144): ids and value bytes. -/
def isResolutionFrame (c : Conf) (f : Frame) : Prop :=
  match c.variant with
  | .legacy =>
    isFrame 0x0003#16 0x0401#16
      ⟨BitVec.ofNat 8 (4 * c.xmap.toNat), BitVec.ofNat 8 (4 * c.ymap.toNat), 0#8, 0#8, 0#8⟩ f
  | .extended =>
    isFrame 0x0007#16 0x0405#16
      ⟨0#8, BitVec.ofNat 8 (100 * (c.xmap.toNat + 1) / 256), BitVec.ofNat 8 (100 * (c.xmap.toNat + 1)),
        BitVec.ofNat 8 (100 * (c.ymap.toNat + 1) / 256), BitVec.ofNat 8 (100 * (c.ymap.toNat + 1))⟩ f

/-- The LED state of id k (R27). -/
def ledOf (c : Conf) (k : Nat) : BitVec 2 := if k = 0 then c.led0 else if k = 1 then c.led1 else c.led2

/-- LED_SEL[k] (R28). -/
def selOf (p : Params) (k : Nat) : Selector := if k = 0 then p.sel0 else if k = 1 then p.sel1 else p.sel2

/-- The LEDSET frame of id k (R166). -/
def isLedFrame (p : Params) (c : Conf) (k : Nat) (f : Frame) : Prop :=
  isFrame 0x0003#16 0x0300#16
    ⟨(selOf p k).s0, (selOf p k).s1, if ledOf c k = 2#2 then 1#8 else 0#8, 0#8, 0#8⟩ f

/-- The FREQSET frame of a frequency code other than a reserved one (R167). -/
def isFreqFrame (code : BitVec 8) (f : Frame) : Prop :=
  isFrame 0x0001#16 0x0005#16
    ⟨if code = 1#8 then 8#8 else if code = 2#8 then 2#8 else 1#8, 0#8, 0#8, 0#8, 0#8⟩ f

/-- The LED ids from i on that are supported, ascending (R166, R200). -/
def supportedFrom (c : Conf) (i : Nat) : List Nat := [0, 1, 2].filter fun k => decide (i ≤ k) && ledOf c k != 0#2

/-- The frames of a list are, in order, those a list of conditions asks for. -/
def framesMatch : List (Frame → Prop) → List Frame → Prop
  | [], [] => True
  | p :: ps, f :: fs => p f ∧ framesMatch ps fs
  | _, _ => False

/-- The frames of a whole commit, in order (R164, R173): RESSET, LEDSET for each supported LED, FREQSET. -/
def commitFrames (p : Params) (c : Conf) : List (Frame → Prop) :=
  isResolutionFrame c :: (supportedFrom c 0).map (isLedFrame p c) ++ [isFreqFrame c.freq]

/-- The FWQUERY frame (R160). -/
def isQueryFrame (f : Frame) : Prop := isFrame 0x0002#16 0x0081#16 ⟨0#8, 0#8, 0#8, 0#8, 0#8⟩ f

/-- The sleeps requested, in order. -/
def sleepsRequested : List Event → List Nat
  | [] => []
  | .sleepReq ms :: es => ms :: sleepsRequested es
  | _ :: es => sleepsRequested es

/-- While the probe runs, the trace holds one FWQUERY write for each attempt begun and one SleepReq(250) for each attempt that
failed before it (R161, R163); at the reset position it holds nothing. -/
def probeCountsOk (s : State) : Prop :=
  s.phase = .init → s.pc.stage = .probe →
    if s.pc.wait = .none then s.trace = []
    else
      framesMatch (List.replicate s.micro.pattempt isQueryFrame) (framesWritten s.trace) ∧
        sleepsRequested s.trace =
          List.replicate (if s.pc.wait = .sleep then s.micro.pattempt else s.micro.pattempt - 1) 250

/-- TX holds the last frame written (R34). -/
def txHoldsLastFrame (s : State) : Prop :=
  match (framesWritten s.trace).getLast? with
  | none => ∀ a, peek s .tx a = none
  | some f => ∀ a, a < 90 → peek s .tx a = some (byteAt f a)

end Sys2Proof.Safety
end

