-- ==== Sys2Proof/Certificates/Slice0/Obligations.lean ====
section
/-! DEFINITION. The statements for the provers. -/

open Sys2Proof Sys2Proof.Machine Sys2Proof.Safety

/-! ## Encoding -/

/-- Decode and encode agree for every instruction, every operand at every value (R74, R75, R78, R79). -/
def Obligations.DecodeOfEncodeIsTheInstruction : Prop :=
  ∀ i : Instr, decode (encode i) = .ok i

/-- A legal host word has one meaning and no bit of it is dropped: it is the encoding of what it decodes to (R78, R79). -/
def Obligations.LegalHostWordIsTheEncodingOfItsMeaning : Prop :=
  ∀ (w : HostWord) (i : Instr), decodeHost w = .ok i → encode i = .host w

/-- A frame the instruction decoder accepts is, but for its checksum byte, the encoding of what it decodes to. This rests on the
model's reading (log 9): its instruction decoder rejects a frame with an unlisted pair of ids or a nonzero status, padding or
unused value byte, because the block sends none (R72, R74, R75), while the spec's own DECODE of a response accepts any 90 bytes
(R77, R103; `decodeFields` here). -/
def Obligations.DecodedFrameIsItsEncodingButForTheChecksum : Prop :=
  ∀ (f : Frame) (i : Instr), decodeFrame f = .ok i →
    ∃ g, encode i = .frame g ∧ ∀ k, k < 90 → k ≠ 88 → byteAt f k = byteAt g k

/-- A few words and frames written out from the spec's tables decode to their instructions (R74, R79). -/
def Obligations.SampleWordsDecode : Prop :=
  decodeHost 0x01000000#32 = .ok .acquire ∧ decodeHost 0x10000100#32 = .ok (.setled 0#8 1#8) ∧
    decodeHost 0x11010000#32 = .ok (.setfreq 1#8) ∧ decodeHost 0x12000700#32 = .ok (.setres 0#8 7#8) ∧
    decodeHost 0x20010000#32 = .ok (.commit true) ∧ decodeHost 0x20020000#32 = .error .illegalHostWord ∧
    decodeFrame (listedFrame 0x0007#16 0x0405#16 ⟨0#8, 0x03#8, 0x20#8, 0x06#8, 0x40#8⟩ 0x63#8) =
      .ok (.ressetExt 800#16 1600#16) ∧
    decodeFrame (listedFrame 0x0002#16 0x0081#16 ⟨0#8, 0#8, 0#8, 0#8, 0#8⟩ 0x83#8) = .ok .fwquery

/-- A host word is legal iff a row of the map matches it; an illegal one presented in IDLE completes with IllegalOp and
changes nothing else (R81). -/
def Obligations.IllegalWordCompletesWithIllegalOp : Prop :=
  (∀ w : HostWord, (∃ i, decodeHost w = .ok i) ↔
      (w &&& 0xFFFFFFFF#32 = 0x01000000#32 ∨ w &&& 0xFFFFFFFF#32 = 0x02000000#32 ∨
        w &&& 0xFF0000FF#32 = 0x10000000#32 ∨ w &&& 0xFF00FFFF#32 = 0x11000000#32 ∨
        w &&& 0xFF0000FF#32 = 0x12000000#32 ∨ w &&& 0xFFFEFFFF#32 = 0x20000000#32)) ∧
    ∀ (s : State) (w : HostWord) (rest : List HostMove), s.phase = .idle → s.env.host = .word w :: rest →
      (∀ i, decodeHost w ≠ .ok i) →
        step s = .next { s with result := 5#8, trace := s.trace ++ [.done .illegalOp], env := { s.env with host := rest } }

/-! ## The codec and the buffers -/

/-- ENCODE gives exactly the layout: ids big-endian, the value bytes, the XOR of the nine bytes that can be nonzero as
checksum, 0 elsewhere, whatever the operands (R101, R102). -/
def Obligations.EncodeGivesTheFrameLayout : Prop :=
  ∀ (cmd req : BitVec 16) (v : Values),
    isFrame cmd req v (encodeFrame cmd req v) ∧
      checksum (encodeFrame cmd req v) = byteAt (encodeFrame cmd req v) 88

/-- DECODE of an encoded frame returns the operands, status 0 and zero padding (R103). -/
def Obligations.DecodeFieldsOfEncodeReturnsTheOperands : Prop :=
  ∀ (cmd req : BitVec 16) (v : Values),
    let d := decodeFields (encodeFrame cmd req v)
    d.status = 0#8 ∧ d.padA = List.replicate 3 0#8 ∧ d.cmd = cmd ∧ d.req = req ∧ d.values = v ∧
      d.padB = List.replicate 75 0#8 ∧ d.checksum = checksum (encodeFrame cmd req v) ∧ d.padC = 0#8

/-- The checksum covers bytes 2..87 and no other: a change of one byte there changes it by the XOR of the old and the new
byte, a change of byte 0, 1, 88 or 89 does not change it (R100). -/
def Obligations.ChecksumCoversExactlyBytes2To87 : Prop :=
  ∀ (f : Frame) (i : Nat) (b : Byte), i < 90 →
    checksum (setByte f i b) =
      if 2 ≤ i ∧ i ≤ 87 then checksum f ^^^ byteAt f i ^^^ b else checksum f

/-- MemWrite sets exactly the bytes written and MemRead gives them back; an access outside 0..89 is refused, and a byte never
written has no value to read (R34, R51). -/
def Obligations.BufferReadsGiveWhatWasWritten : Prop :=
  ∀ (b : Buf) (a : Nat) (v : List Byte) (s : State),
    (a + v.length ≤ 90 → ∃ t, memWrite b a v s = .ok t ∧ memRead b a v.length t = .ok v ∧
        (∀ x, ¬(a ≤ x ∧ x < a + v.length) → peek t b x = peek s b x) ∧
        (∀ c x, c ≠ b → peek t c x = peek s c x)) ∧
      (90 < a + v.length → memWrite b a v s = .outOfRange ∧ memRead b a v.length s = .outOfRange) ∧
      (∀ n x, a + n ≤ 90 → a ≤ x → x < a + n → peek s b x = none → memRead b a n s = .unwritten)

/-! ## The frame instructions -/

/-- Each of the five frame instructions sends its frame (layout and ids R72, R74, R75; the send R120, R129), which goes into TX,
into `cur` and out as WrReq; the sequencer waits for the write's answer; nothing else changes. That it does so in every state,
with no check of PHASE or SEQ_PC, is the model's choice (log 20): the spec has the sequencer send each frame at its stage
only. -/
def Obligations.FrameInstructionsSendTheirFrame : Prop :=
  ∀ (s : State),
    let sendsIt := fun (i : Instr) (cmd req : BitVec 16) (v : Values) =>
      ∃ t f, exec i s = .next t ∧ isFrame cmd req v f ∧ loadsTx f s t ∧
        t.trace = s.trace ++ [.wrReq (writeShape s.params.writeReq) f] ∧
        t.pc = { s.pc with wait := .write } ∧ t.micro = { s.micro with cur := f } ∧
        sameRegisters s t ∧ t.env = s.env
    sendsIt .fwquery 0x0002#16 0x0081#16 ⟨0#8, 0#8, 0#8, 0#8, 0#8⟩ ∧
      (∀ vx vy, sendsIt (.ressetLegacy vx vy) 0x0003#16 0x0401#16 ⟨vx, vy, 0#8, 0#8, 0#8⟩) ∧
      (∀ x y : BitVec 16, sendsIt (.ressetExt x y) 0x0007#16 0x0405#16
        ⟨0#8, x.extractLsb' 8 8, x.extractLsb' 0 8, y.extractLsb' 8 8, y.extractLsb' 0 8⟩) ∧
      (∀ s0 s1 on, sendsIt (.ledset s0 s1 on) 0x0003#16 0x0300#16 ⟨s0, s1, on, 0#8, 0#8⟩) ∧
      ∀ c, sendsIt (.freqset c) 0x0001#16 0x0005#16 ⟨c, 0#8, 0#8, 0#8, 0#8⟩

/-! ## The host operations -/

/-- ACQUIRE, word 0x01000000, in IDLE (R193): the counter goes up by one, or Busy at 255; nothing else but RESULT and the trace
changes. -/
def Obligations.AcquireCountsUpOrIsBusyAt255 : Prop :=
  decodeHost 0x01000000#32 = .ok .acquire ∧
    ∀ s : State, s.phase = .idle →
      exec .acquire s = .next
        (if s.claimCnt = 255#8 then { s with result := 3#8, trace := s.trace ++ [.done .busy] }
         else { s with claimCnt := s.claimCnt + 1#8, result := 0#8, trace := s.trace ++ [.done .ok] })

/-- RELEASE, word 0x02000000, in IDLE (R194): the counter goes down by one, or InvalidArgument at 0; DIRTY and all else stay. -/
def Obligations.ReleaseCountsDownOrIsInvalidAt0 : Prop :=
  decodeHost 0x02000000#32 = .ok .release ∧
    ∀ s : State, s.phase = .idle →
      exec .release s = .next
        (if s.claimCnt = 0#8 then { s with result := 4#8, trace := s.trace ++ [.done .invalidArgument] }
         else { s with claimCnt := s.claimCnt - 1#8, result := 0#8, trace := s.trace ++ [.done .ok] })

/-- SETLED A, B in IDLE (R195): Busy without a claim; InvalidArgument for an id above 2, an Unsupported LED or a state other than
Off and On; otherwise LED[A] holds B, the other LEDs and the rest of CONFIG stay, and DIRTY is 1 whatever LED[A] held. Nothing
else but RESULT and the trace changes. -/
def Obligations.SetledWritesTheAddressedLed : Prop :=
  ∀ (s : State) (a b : Byte), s.phase = .idle →
    encode (.setled a b) = .host (0x10000000#32 ||| (a.setWidth 32 <<< 16) ||| (b.setWidth 32 <<< 8)) ∧
      (s.claimCnt = 0#8 → exec (.setled a b) s = .next { s with result := 3#8, trace := s.trace ++ [.done .busy] }) ∧
      (s.claimCnt ≠ 0#8 → (2 < a.toNat ∨ ledOf s.conf a.toNat = 0#2 ∨ (b ≠ 1#8 ∧ b ≠ 2#8)) →
        exec (.setled a b) s = .next { s with result := 4#8, trace := s.trace ++ [.done .invalidArgument] }) ∧
      (s.claimCnt ≠ 0#8 → a.toNat ≤ 2 → ledOf s.conf a.toNat ≠ 0#2 → (b = 1#8 ∨ b = 2#8) →
        ∃ t, exec (.setled a b) s = .next t ∧
          t = { s with conf := t.conf, dirty := true, result := 0#8, trace := s.trace ++ [.done .ok] } ∧
          (∀ k, k ≤ 2 → ledOf t.conf k = if k = a.toNat then (if b = 1#8 then 1#2 else 2#2) else ledOf s.conf k) ∧
          t.conf.freq = s.conf.freq ∧ t.conf.xmap = s.conf.xmap ∧ t.conf.ymap = s.conf.ymap ∧
          t.conf.variant = s.conf.variant)

/-- SETFREQ A in IDLE (R196): Busy without a claim, InvalidArgument for a code other than 1, 2 and 3, otherwise FREQ holds the
code and DIRTY is 1. Nothing else but RESULT and the trace changes. -/
def Obligations.SetfreqWritesTheCode : Prop :=
  ∀ (s : State) (a : Byte), s.phase = .idle →
    encode (.setfreq a) = .host (0x11000000#32 ||| (a.setWidth 32 <<< 16)) ∧
      exec (.setfreq a) s = .next
        (if s.claimCnt = 0#8 then { s with result := 3#8, trace := s.trace ++ [.done .busy] }
         else if a = 1#8 ∨ a = 2#8 ∨ a = 3#8 then
           { s with conf := { s.conf with freq := a }, dirty := true, result := 0#8, trace := s.trace ++ [.done .ok] }
         else { s with result := 4#8, trace := s.trace ++ [.done .invalidArgument] })

/-- SETRES A, B in IDLE (R197): Busy without a claim; InvalidArgument for an axis other than X and Y or an index past the
variant's table; otherwise the one cursor addressed holds the index, read back whole, and DIRTY is 1. Nothing else but RESULT and
the trace changes. -/
def Obligations.SetresWritesTheAddressedCursor : Prop :=
  ∀ (s : State) (a b : Byte), s.phase = .idle →
    let entries := match s.conf.variant with | .legacy => 56 | .extended => 82
    encode (.setres a b) = .host (0x12000000#32 ||| (a.setWidth 32 <<< 16) ||| (b.setWidth 32 <<< 8)) ∧
      (s.claimCnt = 0#8 → exec (.setres a b) s = .next { s with result := 3#8, trace := s.trace ++ [.done .busy] }) ∧
      (s.claimCnt ≠ 0#8 → ((a ≠ 0#8 ∧ a ≠ 1#8) ∨ entries ≤ b.toNat) →
        exec (.setres a b) s = .next { s with result := 4#8, trace := s.trace ++ [.done .invalidArgument] }) ∧
      (s.claimCnt ≠ 0#8 → (a = 0#8 ∨ a = 1#8) → b.toNat < entries →
        ∃ t, exec (.setres a b) s = .next t ∧
          t = { s with conf := t.conf, dirty := true, result := 0#8, trace := s.trace ++ [.done .ok] } ∧
          (if a = 0#8 then
             t.conf = { s.conf with xmap := t.conf.xmap } ∧ t.conf.xmap.toNat = b.toNat ∧ regRead 0x07#8 t = b
           else t.conf = { s.conf with ymap := t.conf.ymap } ∧ t.conf.ymap.toNat = b.toNat ∧ regRead 0x08#8 t = b))

/-- Without a claim, in IDLE, every COMMIT, forced or not, of a Clean or a Dirty block, is Busy, and nothing but RESULT and the
trace changes (R191, R198). -/
def Obligations.UnclaimedCommitIsBusy : Prop :=
  ∀ (s : State) (force : Bool), s.phase = .idle → s.claimCnt = 0#8 →
    exec (.commit force) s = .next { s with result := 3#8, trace := s.trace ++ [.done .busy] }

/-- COMMIT that runs its sequence (claimed, IDLE, forced or Dirty): PHASE is BUSY, the RESSET frame of the active variant and
the current cursors is sent, the sequencer waits for its write, and nothing is completed; CONFIG, DIRTY, CLAIM_CNT and RESULT
stay (R143, R144, R165, R198). -/
def Obligations.CommitStartsWithTheResolutionFrame : Prop :=
  ∀ (s : State) (force : Bool), s.phase = .idle → s.claimCnt ≠ 0#8 → (force = true ∨ s.dirty = true) →
    ∃ t f, exec (.commit force) s = .next t ∧ isResolutionFrame s.conf f ∧ loadsTx f s t ∧
      t.trace = s.trace ++ [.wrReq (writeShape s.params.writeReq) f] ∧
      t.pc = { routine := .commit, stage := .res, wait := .write } ∧
      t.micro = { s.micro with cur := f, force := force } ∧ sameRegisters { s with phase := .busy } t ∧ t.env = s.env

/-- A COMMIT that is not forced, of a Clean claimed block in IDLE, completes OK at once and sends nothing (R198, R202). -/
def Obligations.CleanCommitSendsNothing : Prop :=
  ∀ s : State, s.phase = .idle → s.claimCnt ≠ 0#8 → s.dirty = false →
    exec (.commit false) s = .next { s with result := 0#8, trace := s.trace ++ [.done .ok] }

/-- In OFFLINE every operation word, legal or not, completes at once with Offline and changes nothing else; only reset leaves
OFFLINE; register reads give what they give in IDLE, but for the PHASE code 3 in place of 1 in STATUS (R201). -/
def Obligations.OfflineAnswersEveryWordWithOffline : Prop :=
  (∀ (s : State) (w : HostWord) (rest : List HostMove), s.phase = .offline → s.env.host = .word w :: rest →
      step s = .next
        { s with result := 6#8, trace := s.trace ++ [.done .offline], env := { s.env with host := rest } }) ∧
    (∀ s t : State, s.phase = .offline → positionOk s = true → noReset s = true → step s = .next t → t.phase = .offline) ∧
    ∀ (s : State) (a : Byte), s.phase = .offline →
      (regRead a s).toNat = (regRead a { s with phase := .idle }).toNat + (if a = 0x00#8 then 2 else 0)

/-- Whatever word a ready port takes, if it completes with an error, only RESULT and the trace have changed (R236). -/
def Obligations.ErrorsOfHostWordsArePrecise : Prop :=
  ∀ (s t : State) (w : HostWord) (rest : List HostMove) (r : ResultCode), portReady s = true →
    s.env.host = .word w :: rest → step s = .next t → t.trace = s.trace ++ [.done r] → r ≠ .ok →
      t = { s with result := t.result, trace := s.trace ++ [.done r], env := { s.env with host := rest } } ∧
        regRead 0x02#8 t = (match r with
          | .ok => 0#8 | .transportError => 1#8 | .deviceNotResponding => 2#8 | .busy => 3#8
          | .invalidArgument => 4#8 | .illegalOp => 5#8 | .offline => 6#8)

/-! ## The step -/

/-- A step with a legal word on a ready port is the execution of the instruction it decodes to, the word taken off the tape
(R190). -/
def Obligations.StepExecutesTheHostWord : Prop :=
  ∀ (s : State) (w : HostWord) (rest : List HostMove) (i : Instr), portReady s = true → s.env.host = .word w :: rest →
    decodeHost w = .ok i → step s = exec i { s with env := { s.env with host := rest } }

/-- A step of the sequencer at a position with no wait is the execution of a frame instruction: at the reset position FWQUERY,
with one claim held and attempt 1 begun (R170); elsewhere the instruction the frame in `cur` decodes to (the model's choice,
log 8). -/
def Obligations.StepExecutesTheSequencersFrame : Prop :=
  ∀ s : State, s.env.host = [] →
    (s.pc = { routine := .init, stage := .probe, wait := .none } →
        step s = exec .fwquery { s with claimCnt := 1#8, micro := { s.micro with pattempt := 1 } }) ∧
      ∀ i, s.pc.routine ≠ .none → s.pc.wait = .none →
        s.pc ≠ { routine := .init, stage := .probe, wait := .none } → decodeFrame s.micro.cur = .ok i →
          step s = exec i s

/-- While PHASE is INIT or BUSY the port is not ready: a word presented is not taken, and the step is the one the machine makes
with no host move (R190). -/
def Obligations.WordWaitsWhileThePortIsNotReady : Prop :=
  ∀ (s t : State) (w : HostWord) (rest : List HostMove), (s.phase = .init ∨ s.phase = .busy) →
    s.env.host = .word w :: rest →
      (step s = .next t ↔ t.env.host = s.env.host ∧
        step { s with env := { s.env with host := [] } } = .next { t with env := { t.env with host := [] } })

/-- A block that waits for an answer that has not come changes nothing (the model's reading of I9, log 1). -/
def Obligations.NoAnswerNoChange : Prop :=
  ∀ s : State, s.env.host = [] → s.pc.wait ≠ .none → answerReady s = false → step s = .next s

/-- RESET, from any state, in one step: every register at its reset value, VARIANT, THUMB_PRESENT and LED[2] from the inputs
sampled, both buffers without a value, the trace empty, the sequencer at (INIT, PROBE, NONE) (R260, R262). The request
outstanding is abandoned: the answer to it, which heads the tape the sequencer waited on, is dropped, so that no step after
the reset takes it, and no other answer is lost (R261; that RESET takes it off the tape is the model's reading, log 12). -/
def Obligations.ResetTakesEveryRegisterToItsResetValue : Prop :=
  ∀ (s : State) (gen : Variant) (thumb : Bool) (rest : List HostMove), s.env.host = .reset gen thumb :: rest →
    ∃ t, step s = .next t ∧ t.phase = .init ∧ t.dirty = true ∧ t.claimCnt = 0#8 ∧ t.conf.variant = gen ∧
      t.thumbPresent = thumb ∧ t.conf.freq = 3#8 ∧ t.conf.led0 = 2#2 ∧ t.conf.led1 = 2#2 ∧
      t.conf.led2 = (if thumb then 2#2 else 0#2) ∧ t.conf.xmap = 9#7 ∧ t.conf.ymap = 9#7 ∧ t.fwver = 0x0000#16 ∧
      t.result = 0#8 ∧ t.pc = { routine := .init, stage := .probe, wait := .none } ∧ (∀ b a, peek t b a = none) ∧
      t.trace = [] ∧ t.params = s.params ∧ t.env.host = rest ∧
      t.env.writes = (if s.pc.wait = .write then s.env.writes.drop 1 else s.env.writes) ∧
      t.env.reads = (if s.pc.wait = .read then s.env.reads.drop 1 else s.env.reads) ∧
      t.env.ticks = (if s.pc.wait = .sleep then s.env.ticks - 1 else s.env.ticks)

/-! ## One exchange and what follows it -/

/-- A write accepted whole is followed by the first read attempt, and nothing else changes (R122, R129). -/
def Obligations.AcceptedWriteIsFollowedByARead : Prop :=
  ∀ (s : State) (rest : List WriteAnswer), noReset s = true → portReady s = false → s.pc.routine ≠ .none →
    s.pc.wait = .write → s.env.writes = .accepted 90 :: rest →
      ∃ t, step s = .next t ∧ t.pc = { s.pc with wait := .read } ∧ t.micro = { s.micro with rattempt := 1 } ∧
        t.trace = s.trace ++ [.rdReq (readShape s.params.readReq)] ∧ sameRegisters s t ∧ sameBuffers s t ∧
        t.env.writes = rest ∧ t.env.reads = s.env.reads ∧ t.env.ticks = s.env.ticks

/-- A read that fails before the third attempt is repeated with no sleep and no other event; only the read is repeated
(R127, R128, R129). -/
def Obligations.FailedReadIsRepeatedUpToThreeAttempts : Prop :=
  ∀ (s : State) (a : ReadAnswer) (rest : List ReadAnswer), noReset s = true → portReady s = false →
    s.pc.routine ≠ .none → s.pc.wait = .read → s.env.reads = a :: rest → ¬fullRead a → s.micro.rattempt < 3 →
      ∃ t, step s = .next t ∧ t.pc = s.pc ∧ t.micro = { s.micro with rattempt := s.micro.rattempt + 1 } ∧
        t.trace = s.trace ++ [.rdReq (readShape s.params.readReq)] ∧ sameRegisters s t ∧ sameBuffers s t ∧
        t.env.reads = rest ∧ t.env.writes = s.env.writes ∧ t.env.ticks = s.env.ticks

/-- A failed exchange ends a COMMIT with TransportError: no later frame is sent, PHASE is IDLE, DIRTY and CONFIG are as they
were (R132, R168, R169, R237). That the micro-state stays when the routine ends is the model's choice (log 5): R33 leaves it
unspecified there. -/
def Obligations.FailedExchangeEndsTheCommit : Prop :=
  ∀ s : State, noReset s = true → portReady s = false → s.pc.routine = .commit →
    (s.pc.stage = .res ∨ s.pc.stage = .led ∨ s.pc.stage = .freq) → exchangeFails s →
      ∃ t, step s = .next t ∧ t.phase = .idle ∧ t.pc.routine = .none ∧ t.pc.wait = .none ∧ t.result = 1#8 ∧
        t.trace = s.trace ++ [.done .transportError] ∧ t.dirty = s.dirty ∧ t.conf = s.conf ∧
        t.claimCnt = s.claimCnt ∧ t.fwver = s.fwver ∧ t.thumbPresent = s.thumbPresent ∧ t.params = s.params ∧
        t.micro = s.micro ∧ sameBuffers s t

/-- A failed exchange of the initial commit ends initialization: OFFLINE, the claim released, DIRTY as it was, TransportError
(R170, R171). That the micro-state stays when the routine ends is the model's choice (log 5): R33 leaves it unspecified there. -/
def Obligations.FailedExchangeEndsInitialization : Prop :=
  ∀ s : State, noReset s = true → portReady s = false → s.pc.routine = .init →
    (s.pc.stage = .res ∨ s.pc.stage = .led ∨ s.pc.stage = .freq) → exchangeFails s →
      ∃ t, step s = .next t ∧ t.phase = .offline ∧ t.pc.routine = .none ∧ t.pc.wait = .none ∧ t.result = 1#8 ∧
        t.trace = s.trace ++ [.done .transportError] ∧ t.dirty = s.dirty ∧ t.claimCnt = 0#8 ∧ t.conf = s.conf ∧
        t.fwver = s.fwver ∧ t.thumbPresent = s.thumbPresent ∧ t.params = s.params ∧ t.micro = s.micro ∧
        sameBuffers s t

/-- A failed probe attempt, by a failed exchange or by a response whose high byte is 0: a sleep of 250 ms before the next
attempt, and after the fifth DeviceNotResponding, OFFLINE and the claim released; FWVER, DIRTY and CONFIG stay. A response is
in RX and what was wrong with it is logged first (R161, R162, R163, R171). That the micro-state stays when the probe gives up,
where the routine has ended, is the model's choice (log 5): R33 leaves it unspecified there. -/
def Obligations.FailedProbeAttemptSleepsOrGivesUp : Prop :=
  ∀ s : State, noReset s = true → portReady s = false → s.pc.routine = .init → s.pc.stage = .probe →
    let outcome := fun (t : State) (logs : List Event) =>
      t.fwver = s.fwver ∧ t.dirty = s.dirty ∧ t.conf = s.conf ∧ t.micro = s.micro ∧ t.params = s.params ∧
        t.thumbPresent = s.thumbPresent ∧ (∀ a, peek t .tx a = peek s .tx a) ∧
        if s.micro.pattempt < 5 then
          t.trace = s.trace ++ logs ++ [.sleepReq 250] ∧ t.pc = { s.pc with wait := .sleep } ∧ t.phase = s.phase ∧
            t.claimCnt = s.claimCnt ∧ t.result = s.result
        else
          t.trace = s.trace ++ logs ++ [.done .deviceNotResponding] ∧ t.pc.routine = .none ∧ t.pc.wait = .none ∧
            t.phase = .offline ∧ t.claimCnt = 0#8 ∧ t.result = 2#8
    (exchangeFails s → ∃ t, step s = .next t ∧ outcome t [] ∧ ∀ a, peek t .rx a = peek s .rx a) ∧
      ∀ bs rest, s.pc.wait = .read → s.env.reads = .returned bs :: rest → bs.length = 90 → bs[8]? = some 0#8 →
        ∃ t, step s = .next t ∧ outcome t (responseLogs (frameOf bs)) ∧ loadsRx bs s t

/-- The timer's answer starts the next probe attempt: FWQUERY is sent again (R124, R161). -/
def Obligations.TimerAnswerStartsTheNextAttempt : Prop :=
  ∀ (s : State) (n : Nat), noReset s = true → portReady s = false → s.pc.routine ≠ .none → s.pc.wait = .sleep →
    s.env.ticks = n + 1 →
      ∃ t f, step s = .next t ∧ isQueryFrame f ∧ loadsTx f s t ∧
        t.trace = s.trace ++ [.wrReq (writeShape s.params.writeReq) f] ∧ t.pc = { s.pc with wait := .write } ∧
        t.micro = { s.micro with pattempt := s.micro.pattempt + 1, cur := f } ∧ sameRegisters s t ∧ t.env.ticks = n

/-- A probe response whose high byte is not 0 succeeds whatever its low byte, status or checksum: FWVER is the big-endian
value of its first two value bytes, and the forced commit starts with the resolution frame; DIRTY stays (R161, R162, R170). -/
def Obligations.ProbeResponseSetsTheVersionAndStartsTheCommit : Prop :=
  ∀ (s : State) (bs : List Byte) (rest : List ReadAnswer) (hi lo : Byte), noReset s = true → portReady s = false →
    s.pc.routine = .init → s.pc.stage = .probe → s.pc.wait = .read → s.env.reads = .returned bs :: rest →
    bs.length = 90 → bs[8]? = some hi → bs[9]? = some lo → hi ≠ 0#8 →
      ∃ t f, step s = .next t ∧ t.fwver.toNat = hi.toNat * 256 + lo.toNat ∧ isResolutionFrame s.conf f ∧
        t.trace = s.trace ++ responseLogs (frameOf bs) ++ [.wrReq (writeShape s.params.writeReq) f] ∧
        (∀ a, peek t .tx a = if a < 90 then some (byteAt f a) else peek s .tx a) ∧ loadsRx bs s t ∧
        t.pc = { s.pc with stage := .res, wait := .write } ∧
        t.micro = { s.micro with force := true, cur := f } ∧
        sameRegisters { s with fwver := t.fwver } t ∧ t.env.reads = rest ∧ t.env.writes = s.env.writes

/-- The response to the resolution frame or to an LED frame leads to the next supported LED in ascending id, the Unsupported
ones skipped, whatever the response's status and checksum, which are only logged (R130, R131, R166). -/
def Obligations.ResponseLeadsToTheNextSupportedLed : Prop :=
  ∀ (s : State) (bs : List Byte) (rest : List ReadAnswer) (i k : Nat) (ks : List Nat), noReset s = true →
    portReady s = false → s.pc.routine ≠ .none → s.pc.wait = .read → s.env.reads = .returned bs :: rest →
    bs.length = 90 → ((s.pc.stage = .res ∧ i = 0) ∨ (s.pc.stage = .led ∧ i = s.micro.led + 1)) →
    supportedFrom s.conf i = k :: ks →
      ∃ t f, step s = .next t ∧ isLedFrame s.params s.conf k f ∧
        t.trace = s.trace ++ responseLogs (frameOf bs) ++ [.wrReq (writeShape s.params.writeReq) f] ∧
        (∀ a, peek t .tx a = if a < 90 then some (byteAt f a) else peek s .tx a) ∧ loadsRx bs s t ∧
        t.pc = { s.pc with stage := .led, wait := .write } ∧ t.micro = { s.micro with led := k, cur := f } ∧
        sameRegisters s t ∧ t.env.reads = rest ∧ t.env.writes = s.env.writes

/-- After the last supported LED, in a COMMIT and in the forced commit of initialization alike, comes the frequency frame of the
current FREQ: 8, 2 or 1 at value byte 0 for 125, 500, 1000 Hz, and 1 for Unknown. A reserved code ends the routine with
InvalidArgument before any frame of this step is sent, DIRTY and CONFIG as they were: a COMMIT in IDLE with its claim kept,
initialization in OFFLINE with the claim released (R26, R164, R167, R169, R170, R171). -/
def Obligations.FrequencyStepFollowsTheLastLed : Prop :=
  ∀ (s : State) (bs : List Byte) (rest : List ReadAnswer) (i : Nat), noReset s = true →
    portReady s = false → (s.pc.routine = .init ∨ s.pc.routine = .commit) → s.pc.wait = .read →
    s.env.reads = .returned bs :: rest → bs.length = 90 →
    ((s.pc.stage = .res ∧ i = 0) ∨ (s.pc.stage = .led ∧ i = s.micro.led + 1)) → supportedFrom s.conf i = [] →
      ∃ t, step s = .next t ∧ loadsRx bs s t ∧ t.conf = s.conf ∧ t.dirty = s.dirty ∧ t.fwver = s.fwver ∧
        t.thumbPresent = s.thumbPresent ∧ t.params = s.params ∧ t.env.reads = rest ∧ t.env.writes = s.env.writes ∧
        if s.conf.freq.toNat ≤ 3 then
          ∃ f, isFreqFrame s.conf.freq f ∧
            t.trace = s.trace ++ responseLogs (frameOf bs) ++ [.wrReq (writeShape s.params.writeReq) f] ∧
            (∀ a, peek t .tx a = if a < 90 then some (byteAt f a) else peek s .tx a) ∧
            t.pc = { s.pc with stage := .freq, wait := .write } ∧ t.phase = s.phase ∧ t.result = s.result ∧
            t.claimCnt = s.claimCnt
        else
          t.trace = s.trace ++ responseLogs (frameOf bs) ++ [.done .invalidArgument] ∧
            (∀ a, peek t .tx a = peek s .tx a) ∧ t.pc.routine = .none ∧ t.pc.wait = .none ∧ t.result = 4#8 ∧
            (if s.pc.routine = .init then t.phase = .offline ∧ t.claimCnt = 0#8
             else t.phase = .idle ∧ t.claimCnt = s.claimCnt)

/-- The response to the frequency frame completes the routine with OK whatever its status and checksum: DIRTY is 0, PHASE is
IDLE, RESULT is OK; initialization also releases its claim, a COMMIT keeps the host's (R130, R131, R172, R198). -/
def Obligations.LastResponseCompletesWithOk : Prop :=
  ∀ (s : State) (bs : List Byte) (rest : List ReadAnswer), noReset s = true → portReady s = false →
    (s.pc.routine = .init ∨ s.pc.routine = .commit) → s.pc.stage = .freq → s.pc.wait = .read →
    s.env.reads = .returned bs :: rest → bs.length = 90 →
      ∃ t, step s = .next t ∧ t.phase = .idle ∧ t.dirty = false ∧ t.result = 0#8 ∧ t.pc.routine = .none ∧
        t.pc.wait = .none ∧ t.claimCnt = (if s.pc.routine = .init then 0#8 else s.claimCnt) ∧
        t.trace = s.trace ++ responseLogs (frameOf bs) ++ [.done .ok] ∧ t.conf = s.conf ∧ t.fwver = s.fwver ∧
        t.thumbPresent = s.thumbPresent ∧ (∀ a, peek t .tx a = peek s .tx a) ∧ loadsRx bs s t

/-! ## What every step keeps -/

/-- Every step keeps the state invariant: SEQ_PC agrees with PHASE, counters, claim, CONFIG, DIRTY, FWVER and RESULT hold only
their listed values, and the buffers keep their canonical form. That the LED index is exactly 3 at stage FREQ, one clause of
`countersOk`, is the model's reading of R33's range 0..3 (log 17). -/
def Obligations.EveryStepKeepsTheInvariant : Prop :=
  ∀ s t : State, inv s = true → step s = .next t → inv t = true

/-- The state after reset meets the invariant and the trace conditions, whatever SENSOR_GEN and THUMB_PRESENT are. -/
def Obligations.ResetMeetsTheInvariants : Prop :=
  ∀ (gen : Variant) (thumb : Bool) (p : Params) (e : Env),
    inv (State.afterReset gen thumb p e) = true ∧ traceOk (State.afterReset gen thumb p e) = true ∧
      lastEventOk (State.afterReset gen thumb p e) = true ∧ probeCountsOk (State.afterReset gen thumb p e) ∧
      txHoldsLastFrame (State.afterReset gen thumb p e) ∧
      State.reset = State.afterReset Config.sensorGen Config.thumbPresent Config.params Env.silent

/-- From every state whose position agrees with PHASE the step answers a next state; no step of any state faults (R34). -/
def Obligations.NoStepStopsWhereThePositionIsLegal : Prop :=
  (∀ s : State, positionOk s = true → ∃ t, step s = .next t) ∧ ∀ (s : State) (r : Fault), step s ≠ .fault r

/-- `routine = NONE` exactly when PHASE is IDLE or OFFLINE, and PHASE moves only as listed: INIT to IDLE or OFFLINE, IDLE to
BUSY, BUSY to IDLE; OFFLINE is left by reset alone (R20, R32). -/
def Obligations.PhaseMovesOnlyAsListed : Prop :=
  ∀ s t : State, positionOk s = true → noReset s = true → step s = .next t →
    (t.pc.routine = .none ↔ t.phase = .idle ∨ t.phase = .offline) ∧
      (t.phase = s.phase ∨ (s.phase = .init ∧ (t.phase = .idle ∨ t.phase = .offline)) ∨
        (s.phase = .idle ∧ t.phase = .busy) ∨ (s.phase = .busy ∧ t.phase = .idle))

/-- Every event a run appends is one the block may append: every frame written is the encoding of a well-formed frame
instruction with the right checksum, under the write setup; reads have the read setup; every sleep is 250 ms; only mismatches
and abnormal statuses are logged (R72, R74, R120, R121, R131). -/
def Obligations.EveryEventIsOneTheBlockMayAppend : Prop :=
  ∀ s t : State, positionOk s = true → traceOk s = true → step s = .next t → traceOk t = true

/-- From any state at all, every frame a step writes has status 0, zero padding, the ids of one of the five kinds, and byte 88
equal to the checksum of bytes 2..87 (R72, R74). -/
def Obligations.EveryFrameWrittenMeetsTheSendConstraints : Prop :=
  ∀ s t : State, noReset s = true → step s = .next t →
    ∃ es, t.trace = s.trace ++ es ∧ ∀ f ∈ framesWritten es,
      byteAt f 0 = 0#8 ∧ (∀ i, 1 ≤ i → i ≤ 3 → byteAt f i = 0#8) ∧ (∀ i, 13 ≤ i → i ≤ 87 → byteAt f i = 0#8) ∧
        byteAt f 89 = 0#8 ∧ byteAt f 88 = checksum f ∧
        (be16 (byteAt f 4) (byteAt f 5), be16 (byteAt f 6) (byteAt f 7)) ∈
          [(0x0002#16, 0x0081#16), (0x0003#16, 0x0401#16), (0x0007#16, 0x0405#16), (0x0003#16, 0x0300#16),
            (0x0001#16, 0x0005#16)]

/-- The last event of the trace is the one SEQ_PC says: in a wait, the request waited for (a write's frame being `cur` with its
checksum); outside every routine, the completion that RESULT records; at the reset position, none (R32, R60, R192). Every step
keeps that. -/
def Obligations.TheOutstandingRequestIsTheLastEvent : Prop :=
  ∀ s t : State, positionOk s = true → lastEventOk s = true → step s = .next t → lastEventOk t = true

/-- A step issues at most one request, as its last event, and only when the answer to the previous request has been taken off
its tape in that same step or a routine starts, so that none is outstanding; no other step of a running block takes an answer
without ending the routine. So a request is never issued before the answer to the previous one has been consumed (R60). -/
def Obligations.ARequestIsIssuedOnlyAfterThePreviousAnswer : Prop :=
  ∀ s t : State, positionOk s = true → noReset s = true → step s = .next t →
    ∃ es, t.trace = s.trace ++ es ∧
      ((∃ logs r, es = logs ++ [r] ∧ isRequest r = true ∧ (∀ e ∈ logs, isRequest e = false) ∧
          (answerTaken s t ∨ routineStarts s t)) ∨
        ((∀ e ∈ es, isRequest e = false) ∧
          (sameTapes s t ∨ (answerTaken s t ∧ t.pc = SeqPc.outside))))

/-- TX holds the last frame written to the transport (R34); before the first write it holds no byte. Every step keeps that,
whatever the position. -/
def Obligations.TxHoldsTheLastFrameWritten : Prop :=
  ∀ s t : State, txHoldsLastFrame s → step s = .next t → txHoldsLastFrame t

/-- The probe: one FWQUERY write for each attempt and one SleepReq(250) between attempts; when it gives up it has issued exactly
5 writes and exactly 4 sleeps, 1000 ms in all, and the result is DeviceNotResponding whatever made each attempt fail (R163). -/
def Obligations.ProbeGivesUpAfterFiveAttemptsAndFourSleeps : Prop :=
  ∀ s t : State, inv s = true → probeCountsOk s → step s = .next t →
    probeCountsOk t ∧
      (noReset s = true → s.phase = .init → s.pc.stage = .probe → t.phase = .offline →
        framesMatch (List.replicate 5 isQueryFrame) (framesWritten t.trace) ∧
          sleepsRequested t.trace = [250, 250, 250, 250] ∧ t.result = 2#8 ∧
          t.trace.getLast? = some (.done .deviceNotResponding))

/-- The trace is append-only (R36). -/
def Obligations.TraceIsAppendOnly : Prop :=
  State.reset.trace = [] ∧
    ∀ s t : State, noReset s = true → step s = .next t → ∃ es, t.trace = s.trace ++ es

/-- RESULT is written at the completion of an operation or of initialization, with its code, and never in between (R31). -/
def Obligations.ResultIsWrittenAtCompletionOnly : Prop :=
  State.reset.result = 0#8 ∧
    ∀ s t : State, noReset s = true → step s = .next t →
      (t.result = s.result ∧ ∃ es, t.trace = s.trace ++ es ∧ ∀ r, .done r ∉ es) ∨
        ∃ es r, t.trace = s.trace ++ es ++ [.done r] ∧ (∀ r', .done r' ∉ es) ∧ t.result = resultCode r

/-- VARIANT (STATUS bit 4: 0 Legacy, 1 Extended) and THUMB_PRESENT (STATUS bit 5) are loaded by reset and written by nothing
else; the parameters never change (R24, R25). -/
def Obligations.VariantIsWrittenByResetOnly : Prop :=
  (∀ s t : State, noReset s = true → step s = .next t →
      t.conf.variant = s.conf.variant ∧ t.thumbPresent = s.thumbPresent ∧ t.params = s.params) ∧
    ∀ (s : State) (gen : Variant) (thumb : Bool) (rest : List HostMove), s.env.host = .reset gen thumb :: rest →
      ∃ t, step s = .next t ∧ t.conf.variant = gen ∧ t.thumbPresent = thumb ∧
        (regRead 0x00#8 t).getLsbD 4 = decide (gen = .extended) ∧ (regRead 0x00#8 t).getLsbD 5 = thumb

/-- commitSeq writes no field of CONFIG and does not write DIRTY; its caller clears DIRTY on success, and on failure DIRTY is
left untouched: while INIT or BUSY runs, no step changes CONFIG, and DIRTY changes only in the step that leaves the phase with
OK (R169). -/
def Obligations.RunningRoutinesWriteNoConfiguration : Prop :=
  ∀ s t : State, (s.phase = .init ∨ s.phase = .busy) → positionOk s = true → noReset s = true → step s = .next t →
    t.conf = s.conf ∧
      (t.phase = s.phase → t.dirty = s.dirty) ∧
      (t.phase ≠ s.phase → t.dirty = if t.result = 0#8 then false else s.dirty)

/-- An LED that is Unsupported stays Unsupported until the next reset, and no other LED becomes Unsupported (R27). -/
def Obligations.UnsupportedLedsStayUnsupported : Prop :=
  ∀ s t : State, noReset s = true → step s = .next t →
    ∀ k, k ≤ 2 → (ledOf t.conf k = 0#2 ↔ ledOf s.conf k = 0#2)

/-- An idle block without a claim sends nothing and changes neither CONFIG nor DIRTY, whatever the host presents (R62, R241). -/
def Obligations.UnclaimedBlockSendsNothingAndKeepsItsConfiguration : Prop :=
  ∀ s t : State, s.phase = .idle → positionOk s = true → s.claimCnt = 0#8 → noReset s = true → step s = .next t →
    t.conf = s.conf ∧ t.dirty = s.dirty ∧ t.phase = .idle ∧ sameBuffers s t ∧
      framesWritten t.trace = framesWritten s.trace

/-- RX is written as one unit, all 90 bytes at once, and only by a read whose answer carries exactly 90 bytes; a short or
over-long read or a timeout leaves it unchanged (R56). -/
def Obligations.RxIsWrittenWholeOrNotAtAll : Prop :=
  ∀ s t : State, noReset s = true → step s = .next t →
    (∀ a, peek t .rx a = peek s .rx a) ∨
      ∃ bs rest, s.pc.wait = .read ∧ s.env.reads = .returned bs :: rest ∧ bs.length = 90 ∧ loadsRx bs s t

/-- Two responses that agree in status, in the first two value bytes, in the checksum byte and in the checksum of bytes 2..87
have the same effect but for the contents of RX: padding, ids and the other value bytes have none (R73, R76). -/
def Obligations.UncheckedResponseBytesHaveNoEffect : Prop :=
  ∀ (s t : State) (b c : List Byte) (rest : List ReadAnswer), noReset s = true → portReady s = false →
    s.pc.routine ≠ .none → s.pc.wait = .read → b.length = 90 → c.length = 90 →
    (∀ i, i = 0 ∨ i = 8 ∨ i = 9 ∨ i = 88 → byteAt (frameOf b) i = byteAt (frameOf c) i) →
    checksum (frameOf b) = checksum (frameOf c) →
    step { s with env := { s.env with reads := .returned b :: rest } } = .next t →
      ∃ rx, step { s with env := { s.env with reads := .returned c :: rest } } = .next { t with rx := rx }

/-! ## Whole runs -/

/-- A step whose answer has come uses up at least one of the steps a routine has left, and no routine begins with more than 45
(at most 40 transfers, 4 sleeps and the first step; R271). -/
def Obligations.EachAnswerShortensTheRoutine : Prop :=
  (∀ s : State, inv s = true → stepsLeft s ≤ 45) ∧
    ∀ s t : State, inv s = true → (s.phase = .init ∨ s.phase = .busy) → noReset s = true → answerReady s = true →
      step s = .next t → stepsLeft t < stepsLeft s

/-- Every run ends: with no host move to come and enough answers of the transport and the timer, the routine under way reaches
IDLE or OFFLINE within the steps it has left (R272). -/
def Obligations.EveryRoutineEnds : Prop :=
  ∀ s : State, inv s = true → s.env.host = [] → stepsLeft s ≤ s.env.writes.length → stepsLeft s ≤ s.env.reads.length →
    stepsLeft s ≤ s.env.ticks →
      ∃ n t, n ≤ stepsLeft s ∧ Host.Core.run Sys2Proof.core n s = .next t ∧ (t.phase = .idle ∨ t.phase = .offline)

/-- The end-to-end commit (R164, R173, R198): from an idle claimed block with a known frequency, forced or Dirty, a COMMIT word
and one accepted write and one full read for each frame, whatever the responses hold, the block sends exactly RESSET, LEDSET for
each supported LED in ascending id, FREQSET, and then is IDLE, Clean, with RESULT OK and CONFIG as it was. -/
def Obligations.CommitSendsTheWholeSequenceInOrder : Prop :=
  ∀ (s : State) (force : Bool) (w : HostWord) (responses : List (List Byte)) (ws : List WriteAnswer)
    (rs : List ReadAnswer), s.phase = .idle → s.claimCnt ≠ 0#8 → (force = true ∨ s.dirty = true) →
    s.conf.freq.toNat ≤ 3 → encode (.commit force) = .host w → s.env.host = [.word w] →
    responses.length = 2 + (supportedFrom s.conf 0).length → (∀ b ∈ responses, b.length = 90) →
    s.env.writes = List.replicate responses.length (.accepted 90) ++ ws →
    s.env.reads = responses.map .returned ++ rs →
      ∃ t fs, Host.Core.run Sys2Proof.core (1 + 2 * responses.length) s = .next t ∧ framesMatch (commitFrames s.params s.conf) fs ∧
        framesWritten t.trace = framesWritten s.trace ++ fs ∧ t.phase = .idle ∧ t.dirty = false ∧ t.result = 0#8 ∧
        t.trace.getLast? = some (.done .ok) ∧ t.conf = s.conf ∧ t.claimCnt = s.claimCnt ∧ t.fwver = s.fwver ∧
        t.env.writes = ws ∧ t.env.reads = rs ∧ t.env.host = []

/-! ## Registers, tables, the host-program syntax -/

/-- The register map: each address gives its field with the reserved bits 0, and addresses 0x0C..0xFF read 0 (R37, R200). -/
def Obligations.RegisterMapReadsTheFields : Prop :=
  ∀ s : State,
    (regRead 0x00#8 s).toNat =
        (match s.phase with | .init => 0 | .idle => 1 | .busy => 2 | .offline => 3) + (if s.dirty then 4 else 0) +
          (if s.claimCnt = 0#8 then 0 else 8) + (match s.conf.variant with | .legacy => 0 | .extended => 16) +
          (if s.thumbPresent then 32 else 0) ∧
      regRead 0x01#8 s = s.claimCnt ∧ regRead 0x02#8 s = s.result ∧ regRead 0x03#8 s = s.conf.freq ∧
      (regRead 0x04#8 s).toNat = s.conf.led0.toNat ∧ (regRead 0x05#8 s).toNat = s.conf.led1.toNat ∧
      (regRead 0x06#8 s).toNat = s.conf.led2.toNat ∧ (regRead 0x07#8 s).toNat = s.conf.xmap.toNat ∧
      (regRead 0x08#8 s).toNat = s.conf.ymap.toNat ∧
      (regRead 0x09#8 s).toNat * 256 + (regRead 0x0A#8 s).toNat = s.fwver.toNat ∧
      (regRead 0x0B#8 s).toNat =
        (if s.conf.led0 = 0#2 then 0 else 1) + (if s.conf.led1 = 0#2 then 0 else 2) + (if s.conf.led2 = 0#2 then 0 else 4) ∧
      ∀ a : Byte, 0x0C ≤ a.toNat → regRead a s = 0#8

/-- The encoders' bytes over both tables (R140, R143, R144): entry k is 100 * (k + 1), its legacy byte 4 * k with nothing lost,
its extended word the resolution itself. -/
def Obligations.ResolutionTableEncodesWithoutLoss : Prop :=
  (∀ k, k < 56 → res k = 100 * (k + 1) ∧ (legacyByte (res k)).toNat = 4 * k) ∧
    ∀ k, k < 82 → res k = 100 * (k + 1) ∧
      (hi8 (extWord (res k))).toNat * 256 + (lo8 (extWord (res k))).toNat = 100 * (k + 1)

/-- The pseudo-operations assemble to their operations' words, whatever the operand (R83, R84). -/
def Obligations.PseudoOperationsExpand : Prop :=
  ∀ x : Byte,
    hostWordsOf (expandPseudo (.ledon x)) = [0x10000200#32 ||| (x.setWidth 32 <<< 16)] ∧
      hostWordsOf (expandPseudo (.ledoff x)) = [0x10000100#32 ||| (x.setWidth 32 <<< 16)] ∧
      hostWordsOf (expandPseudo (.setresxy x)) =
        [0x12000000#32 ||| (x.setWidth 32 <<< 8), 0x12010000#32 ||| (x.setWidth 32 <<< 8)]
end

