-- ==== Sys2Proof/Laws/Codec.lean ====
section
/-! SUPPORT. The small lemmas of the codec: byte access after byte writes, the checksum, ENCODE and DECODE byte by byte. -/

namespace Sys2Proof.Machine

theorem Frame.ext_bytes {f g : Frame} (h : f.bytes = g.bytes) : f = g := by
  cases f; cases g; simp_all

@[simp] theorem setByte_bytes (f : Frame) (i : Nat) (b : Byte) : (setByte f i b).bytes = f.bytes.set i b := rfl

theorem byteAt_setByte (f : Frame) (i j : Nat) (b : Byte) (hi : i < 90) :
    byteAt (setByte f i b) j = if i = j then b else byteAt f j := by
  have h := f.len
  have hl : i < f.bytes.length := by rw [h]; exact hi
  by_cases hij : i = j
  · subst hij; simp [byteAt, hl]
  · simp [byteAt, hij]

@[simp] theorem byteAt_zeroFrame (i : Nat) : byteAt zeroFrame i = 0#8 := by
  simp [byteAt, zeroFrame, List.getElem?_replicate]
  split <;> rfl

theorem bytes_getElem? (f : Frame) {i : Nat} (h : i < 90) : f.bytes[i]? = some (byteAt f i) := by
  have hl : i < f.bytes.length := by rw [f.len]; exact h
  simp [byteAt, hl]

/-- A frame is its 90 bytes. -/
theorem frame_ext {f g : Frame} (h : ∀ i, i < 90 → byteAt f i = byteAt g i) : f = g := by
  apply Frame.ext_bytes
  apply List.ext_getElem?
  intro i
  by_cases hi : i < 90
  · rw [bytes_getElem? f hi, bytes_getElem? g hi, h i hi]
  · rw [List.getElem?_eq_none (by rw [f.len]; simp [frameLen]; omega),
      List.getElem?_eq_none (by rw [g.len]; simp [frameLen]; omega)]

@[simp] theorem frameOf_bytes (f : Frame) : frameOf f.bytes = f := by
  apply Frame.ext_bytes
  have h := f.len
  simp [frameOf, ← h]

theorem bytes_frameOf {bs : List Byte} (h : bs.length = frameLen) : (frameOf bs).bytes = bs := by
  simp [frameOf, ← h]

/-- The checksum depends on bytes 2..87 only (R100). -/
theorem checksum_congr {f g : Frame} (h : ∀ i, 2 ≤ i → i ≤ 87 → byteAt f i = byteAt g i) :
    checksum f = checksum g := by
  have hm : ∀ i ∈ List.range' ckFirst (ckLast + 1 - ckFirst), byteAt f i = byteAt g i := by
    intro i hi
    simp [ckFirst, ckLast] at hi
    exact h i hi.1 (by omega)
  unfold checksum
  generalize List.range' ckFirst (ckLast + 1 - ckFirst) = l at hm
  generalize (0#8 : Byte) = c
  induction l generalizing c with
  | nil => rfl
  | cons x l ih =>
    simp only [List.foldl_cons]
    rw [hm x List.mem_cons_self]
    exact ih (fun i hi => hm i (List.mem_cons_of_mem _ hi)) _

/-- A byte outside 2..87 never changes the checksum (R100). -/
theorem checksum_setByte {f : Frame} {i : Nat} {b : Byte} (h : i < 2 ∨ 87 < i) (hi : i < 90) :
    checksum (setByte f i b) = checksum f :=
  checksum_congr fun j h2 h87 => by rw [byteAt_setByte _ _ _ _ hi, if_neg (by omega)]

@[simp] theorem checksum_withChecksum (f : Frame) : checksum (withChecksum f) = checksum f :=
  checksum_setByte (by simp [ckOffset]) (by simp [ckOffset])

@[simp] theorem byteAt_withChecksum (f : Frame) (j : Nat) :
    byteAt (withChecksum f) j = if j = 88 then checksum f else byteAt f j := by
  rw [withChecksum, byteAt_setByte _ _ _ _ (by simp [ckOffset])]
  by_cases h : j = 88 <;> simp [ckOffset, h, eq_comm]

/-- Recomputing a checksum that is right changes nothing (R106). -/
theorem withChecksum_eq_self {f : Frame} (h : checksum f = byteAt f 88) : withChecksum f = f :=
  frame_ext fun i _ => by
    rw [byteAt_withChecksum]
    split
    · rename_i hi; rw [hi, h]
    · rfl

/-- Byte i of the frame ENCODE builds, the checksum byte apart (R102). -/
theorem byteAt_encodeBody (cmd req : BitVec 16) (v : Values) (i : Nat) :
    byteAt (encodeBody cmd req v) i =
      if i = 4 then hi8 cmd else if i = 5 then lo8 cmd else if i = 6 then hi8 req else if i = 7 then lo8 req
      else if i = 8 then v.v0 else if i = 9 then v.v1 else if i = 10 then v.v2 else if i = 11 then v.v3
      else if i = 12 then v.v4 else 0#8 := by
  simp only [encodeBody, byteAt_setByte _ _ _ _ (show 12 < 90 by omega), byteAt_setByte _ _ _ _ (show 11 < 90 by omega),
    byteAt_setByte _ _ _ _ (show 10 < 90 by omega), byteAt_setByte _ _ _ _ (show 9 < 90 by omega),
    byteAt_setByte _ _ _ _ (show 8 < 90 by omega), byteAt_setByte _ _ _ _ (show 7 < 90 by omega),
    byteAt_setByte _ _ _ _ (show 6 < 90 by omega), byteAt_setByte _ _ _ _ (show 5 < 90 by omega),
    byteAt_setByte _ _ _ _ (show 4 < 90 by omega), byteAt_zeroFrame, eq_comm (b := i)]
  repeat' split
  all_goals first | rfl | omega

/-- Byte i of the frame ENCODE builds (R102). -/
theorem byteAt_encodeFrame (cmd req : BitVec 16) (v : Values) (i : Nat) :
    byteAt (encodeFrame cmd req v) i =
      if i = 88 then checksum (encodeBody cmd req v) else byteAt (encodeBody cmd req v) i :=
  byteAt_withChecksum _ _

/-- ENCODE leaves the right checksum, so recomputing it before a send changes nothing (R102, R106). -/
@[simp] theorem withChecksum_encodeFrame (cmd req : BitVec 16) (v : Values) :
    withChecksum (encodeFrame cmd req v) = encodeFrame cmd req v :=
  withChecksum_eq_self (by rw [byteAt_encodeFrame, if_pos rfl]; exact checksum_withChecksum _)

theorem mem_slice {f : Frame} {a n : Nat} {b : Byte} (h : b ∈ slice f a n) :
    ∃ i, a ≤ i ∧ i < a + n ∧ b = byteAt f i := by
  obtain ⟨j, hj, rfl⟩ := List.getElem_of_mem h
  simp only [slice, List.length_take, List.length_drop] at hj
  refine ⟨a + j, by omega, by omega, ?_⟩
  have hl : a + j < f.bytes.length := by omega
  simp [slice, byteAt, hl]

@[simp] theorem be16_hi8_lo8 (x : BitVec 16) : be16 (hi8 x) (lo8 x) = x := by
  apply BitVec.eq_of_getLsbD_eq
  intro i hi
  unfold be16 hi8 lo8
  rw [BitVec.getLsbD_append, BitVec.getLsbD_extractLsb', BitVec.getLsbD_extractLsb']
  by_cases h : i < 8
  · simp [h]
  · have h1 : i - 8 < 8 := by omega
    have h2 : 8 + (i - 8) = i := by omega
    simp [h, h1, h2]

/-- `be16` is big-endian (R10). -/
theorem be16_toNat (a b : Byte) : (be16 a b).toNat = a.toNat * 256 + b.toNat := by
  have h := BitVec.toNat_append a b
  rw [Nat.shiftLeft_eq, Nat.mul_comm, ← Nat.two_pow_add_eq_or_of_lt b.isLt] at h
  have : (be16 a b).toNat = (a ++ b).toNat := rfl
  omega

@[simp] theorem hi8_be16 (a b : Byte) : hi8 (be16 a b) = a := by
  apply BitVec.eq_of_toNat_eq
  have := b.isLt
  have := a.isLt
  rw [hi8, BitVec.extractLsb'_toNat, be16_toNat, Nat.shiftRight_eq_div_pow]
  omega

@[simp] theorem lo8_be16 (a b : Byte) : lo8 (be16 a b) = b := by
  apply BitVec.eq_of_toNat_eq
  have := b.isLt
  rw [lo8, BitVec.extractLsb'_toNat, be16_toNat, Nat.shiftRight_zero]
  omega

end Sys2Proof.Machine
end

