-- ==== Sys2Proof/Laws/Memory.lean ====
section
/-! SUPPORT. What the frame-buffer operations do: reads after writes, the canonical form, whole-buffer writes. -/

namespace Sys2Proof.Machine

theorem Memory.readByte_writeByte (m : Memory) (a x : Nat) (b : Byte) :
    Memory.readByte (Memory.writeByte m a b) x = if x = a then some b else Memory.readByte m x := by
  induction m with
  | nil => simp [Memory.writeByte, Memory.readByte, eq_comm]
  | cons c m ih =>
    obtain ⟨c, d⟩ := c
    unfold Memory.writeByte
    split
    · simp [Memory.readByte, eq_comm]
    · split
      · rename_i h; subst h
        by_cases hx : x = a
        · simp [Memory.readByte, hx]
        · simp [Memory.readByte, hx, Ne.symm hx]
      · simp only [Memory.readByte, ih]
        by_cases hx : x = a
        · subst hx
          rename_i h; simp [Ne.symm h]
        · simp [hx]

/-- A write leaves every other byte alone, and gives the bytes written. -/
theorem Memory.readByte_writeBytes (bs : List Byte) : ∀ (m : Memory) (a x : Nat),
    Memory.readByte (Memory.writeBytes m a bs) x =
      if a ≤ x ∧ x < a + bs.length then bs[x - a]? else Memory.readByte m x := by
  induction bs with
  | nil => intro m a x; rw [if_neg (by simp)]; rfl
  | cons b bs ih =>
    intro m a x
    rw [Memory.writeBytes, ih, Memory.readByte_writeByte]
    by_cases hx : x = a
    · subst hx; simp
    · by_cases h1 : a + 1 ≤ x ∧ x < a + 1 + bs.length
      · have : x - a = (x - (a + 1)) + 1 := by omega
        rw [if_pos h1, if_pos (by simp; omega), this, List.getElem?_cons_succ]
      · rw [if_neg h1, if_neg hx, if_neg (by simp; omega)]

theorem Memory.readBytes_eq_some {m : Memory} {bs : List Byte} : ∀ {a : Nat},
    (∀ i, i < bs.length → Memory.readByte m (a + i) = bs[i]?) →
      Memory.readBytes m a bs.length = some bs := by
  induction bs with
  | nil => intro a _; rfl
  | cons b bs ih =>
    intro a h
    have h0 : Memory.readByte m a = some b := by simpa using h 0 (by simp)
    have ht : Memory.readBytes m (a + 1) bs.length = some bs := by
      refine ih fun i hi => ?_
      have := h (i + 1) (by simpa using hi)
      rwa [List.getElem?_cons_succ, show a + (i + 1) = a + 1 + i by omega] at this
    simp [Memory.readBytes, h0, ht]

/-- Bytes written are read back. -/
theorem Memory.readBytes_writeBytes (m : Memory) (a : Nat) (bs : List Byte) :
    Memory.readBytes (Memory.writeBytes m a bs) a bs.length = some bs := by
  refine Memory.readBytes_eq_some fun i hi => ?_
  rw [Memory.readByte_writeBytes, if_pos (by omega), Nat.add_sub_cancel_left]

/-- A read of n bytes gives n bytes. -/
theorem Memory.length_of_readBytes {m : Memory} : ∀ {n a : Nat} {bs : List Byte}, Memory.readBytes m a n = some bs →
    bs.length = n := by
  intro n
  induction n with
  | zero => intro a bs h; obtain rfl : [] = bs := by simpa [Memory.readBytes] using h
            rfl
  | succ n ih =>
    intro a bs h
    unfold Memory.readBytes at h
    split at h
    · rename_i b cs _ hc
      obtain rfl : b :: cs = bs := by simpa using h
      rw [List.length_cons, ih hc]
    · cases h

/-- A read of n bytes gives each byte read alone. -/
theorem Memory.readByte_of_readBytes {m : Memory} : ∀ {n a : Nat} {bs : List Byte}, Memory.readBytes m a n = some bs →
    ∀ i, i < n → Memory.readByte m (a + i) = bs[i]? := by
  intro n
  induction n with
  | zero => intro a bs _ i h; omega
  | succ n ih =>
    intro a bs h i hi
    unfold Memory.readBytes at h
    split at h
    · rename_i b cs hb hc
      obtain rfl : b :: cs = bs := by simpa using h
      cases i with
      | zero => simpa using hb
      | succ i =>
        have := ih hc i (by omega)
        rw [Nat.add_right_comm] at this
        simpa [Nat.add_assoc] using this
    · cases h

theorem Memory.writeByte_writeByte (m : Memory) (a : Nat) (b c : Byte) :
    Memory.writeByte (Memory.writeByte m a b) a c = Memory.writeByte m a c := by
  induction m with
  | nil => simp [Memory.writeByte]
  | cons x m ih =>
    obtain ⟨x, d⟩ := x
    by_cases h : a < x
    · simp [Memory.writeByte, h]
    · by_cases h' : a = x
      · simp [Memory.writeByte, h']
      · simp [Memory.writeByte, h, h', ih]

theorem Memory.writeByte_comm (m : Memory) {a c : Nat} (h : a < c) (b d : Byte) :
    Memory.writeByte (Memory.writeByte m c d) a b = Memory.writeByte (Memory.writeByte m a b) c d := by
  have hca : ¬c < a := by omega
  have hne : c ≠ a := by omega
  have hne' : a ≠ c := by omega
  induction m with
  | nil => simp [Memory.writeByte, h, hca, hne]
  | cons x m ih =>
    obtain ⟨x, e⟩ := x
    rcases Nat.lt_trichotomy a x with h1 | h1 | h1 <;> rcases Nat.lt_trichotomy c x with h2 | h2 | h2
    all_goals first
      | omega
      | (have e1 : ¬x < a := by omega
         have e2 : ¬x < c := by omega
         have e3 : ¬a < x ∨ a < x := by omega
         simp_all [Memory.writeByte, Nat.not_lt_of_gt, Nat.ne_of_gt, Nat.ne_of_lt])
      | (simp_all [Memory.writeByte, Nat.not_lt_of_gt, Nat.ne_of_gt, Nat.ne_of_lt])

theorem Memory.writeBytes_writeByte_comm (bs : List Byte) : ∀ (m : Memory) {a c : Nat} (_ : a < c) (b : Byte),
    Memory.writeByte (Memory.writeBytes m c bs) a b = Memory.writeBytes (Memory.writeByte m a b) c bs := by
  induction bs with
  | nil => intros; rfl
  | cons x bs ih =>
    intro m a c h b
    simp only [Memory.writeBytes]
    rw [ih _ (by omega), Memory.writeByte_comm _ h]

/-- One more byte written inside a run of bytes just written is the run with that byte set. -/
theorem Memory.writeByte_writeBytes (bs : List Byte) : ∀ (m : Memory) (a i : Nat) (b : Byte), i < bs.length →
    Memory.writeByte (Memory.writeBytes m a bs) (a + i) b = Memory.writeBytes m a (bs.set i b) := by
  induction bs with
  | nil => intro m a i b h; simp at h
  | cons x bs ih =>
    intro m a i b h
    cases i with
    | zero =>
      simp only [Nat.add_zero, List.set_cons_zero, Memory.writeBytes]
      rw [Memory.writeBytes_writeByte_comm _ _ (by omega), Memory.writeByte_writeByte]
    | succ i =>
      simp only [List.set_cons_succ, Memory.writeBytes]
      rw [show a + (i + 1) = a + 1 + i by omega, ih _ _ _ _ (by simpa using h)]

/-! ## The canonical form -/

theorem Memory.rising_cons {a : Nat} {b : Byte} {m : Memory} :
    Memory.rising ((a, b) :: m) = true ↔ (∀ c ∈ m, a < c.1) ∧ Memory.rising m = true := by
  induction m generalizing a b with
  | nil => simp [Memory.rising]
  | cons x m ih =>
    obtain ⟨x, d⟩ := x
    simp only [Memory.rising, Bool.and_eq_true, decide_eq_true_eq, List.mem_cons, forall_eq_or_imp]
    constructor
    · rintro ⟨h, hr⟩
      exact ⟨⟨h, fun c hc => Nat.lt_trans h ((ih.1 hr).1 c hc)⟩, hr⟩
    · rintro ⟨⟨h, _⟩, hr⟩
      exact ⟨h, hr⟩

theorem Memory.mem_writeByte {m : Memory} {a : Nat} {b : Byte} {c : Host.Cell}
    (h : c ∈ Memory.writeByte m a b) : c = (a, b) ∨ c ∈ m := by
  induction m with
  | nil => simpa [Memory.writeByte] using h
  | cons x m ih =>
    obtain ⟨x, d⟩ := x
    unfold Memory.writeByte at h
    split at h
    · simpa using h
    · split at h
      · rcases List.mem_cons.1 h with h | h
        · exact .inl h
        · exact .inr (List.mem_cons_of_mem _ h)
      · rcases List.mem_cons.1 h with h | h
        · exact .inr (h ▸ List.mem_cons_self)
        · exact (ih h).imp id (List.mem_cons_of_mem _)

theorem Memory.rising_writeByte {m : Memory} (h : Memory.rising m = true) (a : Nat) (b : Byte) :
    Memory.rising (Memory.writeByte m a b) = true := by
  induction m with
  | nil => rfl
  | cons x m ih =>
    obtain ⟨x, d⟩ := x
    have hx := Memory.rising_cons.1 h
    unfold Memory.writeByte
    split
    · rename_i hlt
      exact Memory.rising_cons.2 ⟨fun c hc => by
        rcases List.mem_cons.1 hc with hc | hc
        · simpa [hc] using hlt
        · exact Nat.lt_trans hlt (hx.1 c hc), h⟩
    · split
      · rename_i he; subst he
        exact Memory.rising_cons.2 hx
      · refine Memory.rising_cons.2 ⟨fun c hc => ?_, ih hx.2⟩
        rcases Memory.mem_writeByte hc with hc | hc
        · subst hc; simp; omega
        · exact hx.1 c hc

theorem Memory.wf_writeByte {m : Memory} (h : m.wf = true) {a : Nat} (ha : a < frameLen) (b : Byte) :
    (Memory.writeByte m a b).wf = true := by
  simp only [Memory.wf, Bool.and_eq_true, List.all_eq_true, decide_eq_true_eq] at h ⊢
  refine ⟨Memory.rising_writeByte h.1 a b, fun c hc => ?_⟩
  rcases Memory.mem_writeByte hc with hc | hc
  · simpa [hc] using ha
  · exact h.2 c hc

/-- Every write inside 0..89 keeps the canonical form. -/
theorem Memory.wf_writeBytes (bs : List Byte) : ∀ {m : Memory} (_ : m.wf = true) {a : Nat} (_ : a + bs.length ≤ frameLen),
    (Memory.writeBytes m a bs).wf = true := by
  induction bs with
  | nil => intro m h a _; exact h
  | cons b bs ih =>
    intro m h a ha
    simp only [List.length_cons] at ha
    exact ih (Memory.wf_writeByte h (by omega) b) (by omega)

@[simp] theorem Memory.wf_nil : Memory.wf [] = true := rfl

/-- Reset's buffers have the canonical form. -/
theorem reset_buffers_wf : State.reset.tx.wf = true ∧ State.reset.rx.wf = true := ⟨rfl, rfl⟩

/-- What MemWrite gives (R51): the buffer with the bytes set, and nothing outside 0..89. -/
theorem memWrite_ok {b : Buf} {a : Nat} {v : List Byte} {s : State} (h : a + v.length ≤ frameLen) :
    memWrite b a v s = .ok (setBuffer s b (Memory.writeBytes (buffer s b) a v)) := by
  simp [memWrite, h]

/-- What MemRead gives (R51). -/
theorem memRead_ok {b : Buf} {a n : Nat} {s : State} {v : List Byte} (h : a + n ≤ frameLen)
    (hv : Memory.readBytes (buffer s b) a n = some v) : memRead b a n s = .ok v := by
  simp [memRead, h, hv]

/-- What the 16-bit read gives (R51): the byte at the lower offset is the high byte. -/
theorem memRead16_ok {b : Buf} {a : Nat} {s : State} {hi lo : Byte} (h : a + 2 ≤ frameLen)
    (h0 : peek s b a = some hi) (h1 : peek s b (a + 1) = some lo) : memRead16 b a s = .ok (be16 hi lo) := by
  have e0 : memRead b a 1 s = .ok [hi] := memRead_ok (by omega) (by
    unfold peek at h0; simp [Memory.readBytes, h0])
  have e1 : memRead b (a + 1) 1 s = .ok [lo] := memRead_ok (by omega) (by
    unfold peek at h1; simp [Memory.readBytes, h1])
  simp [memRead16, e0, e1]

end Sys2Proof.Machine
end

