-- ==== Sys2Proof/Laws/State.lean ====
section
/-! SUPPORT. What each named update does to each field of State: one lemma per field per update. -/

namespace Sys2Proof.Machine

@[simp] theorem markDirty_phase (s : State) : (markDirty s).phase = s.phase := rfl
@[simp] theorem markDirty_dirty (s : State) : (markDirty s).dirty = true := rfl
@[simp] theorem markDirty_claimCnt (s : State) : (markDirty s).claimCnt = s.claimCnt := rfl
@[simp] theorem markDirty_conf (s : State) : (markDirty s).conf = s.conf := rfl
@[simp] theorem markDirty_thumbPresent (s : State) : (markDirty s).thumbPresent = s.thumbPresent := rfl
@[simp] theorem markDirty_fwver (s : State) : (markDirty s).fwver = s.fwver := rfl
@[simp] theorem markDirty_result (s : State) : (markDirty s).result = s.result := rfl
@[simp] theorem markDirty_pc (s : State) : (markDirty s).pc = s.pc := rfl
@[simp] theorem markDirty_micro (s : State) : (markDirty s).micro = s.micro := rfl
@[simp] theorem markDirty_tx (s : State) : (markDirty s).tx = s.tx := rfl
@[simp] theorem markDirty_rx (s : State) : (markDirty s).rx = s.rx := rfl
@[simp] theorem markDirty_trace (s : State) : (markDirty s).trace = s.trace := rfl
@[simp] theorem markDirty_params (s : State) : (markDirty s).params = s.params := rfl
@[simp] theorem markDirty_env (s : State) : (markDirty s).env = s.env := rfl

@[simp] theorem setFreqCode_phase (c : BitVec 8) (s : State) : (setFreqCode c s).phase = s.phase := rfl
@[simp] theorem setFreqCode_dirty (c : BitVec 8) (s : State) : (setFreqCode c s).dirty = s.dirty := rfl
@[simp] theorem setFreqCode_claimCnt (c : BitVec 8) (s : State) : (setFreqCode c s).claimCnt = s.claimCnt := rfl
@[simp] theorem setFreqCode_conf (c : BitVec 8) (s : State) : (setFreqCode c s).conf = { s.conf with freq := c } := rfl
@[simp] theorem setFreqCode_thumbPresent (c : BitVec 8) (s : State) :
    (setFreqCode c s).thumbPresent = s.thumbPresent := rfl
@[simp] theorem setFreqCode_fwver (c : BitVec 8) (s : State) : (setFreqCode c s).fwver = s.fwver := rfl
@[simp] theorem setFreqCode_result (c : BitVec 8) (s : State) : (setFreqCode c s).result = s.result := rfl
@[simp] theorem setFreqCode_pc (c : BitVec 8) (s : State) : (setFreqCode c s).pc = s.pc := rfl
@[simp] theorem setFreqCode_micro (c : BitVec 8) (s : State) : (setFreqCode c s).micro = s.micro := rfl
@[simp] theorem setFreqCode_tx (c : BitVec 8) (s : State) : (setFreqCode c s).tx = s.tx := rfl
@[simp] theorem setFreqCode_rx (c : BitVec 8) (s : State) : (setFreqCode c s).rx = s.rx := rfl
@[simp] theorem setFreqCode_trace (c : BitVec 8) (s : State) : (setFreqCode c s).trace = s.trace := rfl
@[simp] theorem setFreqCode_params (c : BitVec 8) (s : State) : (setFreqCode c s).params = s.params := rfl
@[simp] theorem setFreqCode_env (c : BitVec 8) (s : State) : (setFreqCode c s).env = s.env := rfl

@[simp] theorem setXmap_phase (k : BitVec 7) (s : State) : (setXmap k s).phase = s.phase := rfl
@[simp] theorem setXmap_dirty (k : BitVec 7) (s : State) : (setXmap k s).dirty = s.dirty := rfl
@[simp] theorem setXmap_claimCnt (k : BitVec 7) (s : State) : (setXmap k s).claimCnt = s.claimCnt := rfl
@[simp] theorem setXmap_conf (k : BitVec 7) (s : State) : (setXmap k s).conf = { s.conf with xmap := k } := rfl
@[simp] theorem setXmap_thumbPresent (k : BitVec 7) (s : State) : (setXmap k s).thumbPresent = s.thumbPresent := rfl
@[simp] theorem setXmap_fwver (k : BitVec 7) (s : State) : (setXmap k s).fwver = s.fwver := rfl
@[simp] theorem setXmap_result (k : BitVec 7) (s : State) : (setXmap k s).result = s.result := rfl
@[simp] theorem setXmap_pc (k : BitVec 7) (s : State) : (setXmap k s).pc = s.pc := rfl
@[simp] theorem setXmap_micro (k : BitVec 7) (s : State) : (setXmap k s).micro = s.micro := rfl
@[simp] theorem setXmap_tx (k : BitVec 7) (s : State) : (setXmap k s).tx = s.tx := rfl
@[simp] theorem setXmap_rx (k : BitVec 7) (s : State) : (setXmap k s).rx = s.rx := rfl
@[simp] theorem setXmap_trace (k : BitVec 7) (s : State) : (setXmap k s).trace = s.trace := rfl
@[simp] theorem setXmap_params (k : BitVec 7) (s : State) : (setXmap k s).params = s.params := rfl
@[simp] theorem setXmap_env (k : BitVec 7) (s : State) : (setXmap k s).env = s.env := rfl

@[simp] theorem setYmap_phase (k : BitVec 7) (s : State) : (setYmap k s).phase = s.phase := rfl
@[simp] theorem setYmap_dirty (k : BitVec 7) (s : State) : (setYmap k s).dirty = s.dirty := rfl
@[simp] theorem setYmap_claimCnt (k : BitVec 7) (s : State) : (setYmap k s).claimCnt = s.claimCnt := rfl
@[simp] theorem setYmap_conf (k : BitVec 7) (s : State) : (setYmap k s).conf = { s.conf with ymap := k } := rfl
@[simp] theorem setYmap_thumbPresent (k : BitVec 7) (s : State) : (setYmap k s).thumbPresent = s.thumbPresent := rfl
@[simp] theorem setYmap_fwver (k : BitVec 7) (s : State) : (setYmap k s).fwver = s.fwver := rfl
@[simp] theorem setYmap_result (k : BitVec 7) (s : State) : (setYmap k s).result = s.result := rfl
@[simp] theorem setYmap_pc (k : BitVec 7) (s : State) : (setYmap k s).pc = s.pc := rfl
@[simp] theorem setYmap_micro (k : BitVec 7) (s : State) : (setYmap k s).micro = s.micro := rfl
@[simp] theorem setYmap_tx (k : BitVec 7) (s : State) : (setYmap k s).tx = s.tx := rfl
@[simp] theorem setYmap_rx (k : BitVec 7) (s : State) : (setYmap k s).rx = s.rx := rfl
@[simp] theorem setYmap_trace (k : BitVec 7) (s : State) : (setYmap k s).trace = s.trace := rfl
@[simp] theorem setYmap_params (k : BitVec 7) (s : State) : (setYmap k s).params = s.params := rfl
@[simp] theorem setYmap_env (k : BitVec 7) (s : State) : (setYmap k s).env = s.env := rfl

@[simp] theorem settleDirty_phase (r : ResultCode) (s : State) : (settleDirty r s).phase = s.phase := rfl
@[simp] theorem settleDirty_dirty (r : ResultCode) (s : State) :
    (settleDirty r s).dirty = if r = .ok then false else s.dirty := rfl
@[simp] theorem settleDirty_claimCnt (r : ResultCode) (s : State) : (settleDirty r s).claimCnt = s.claimCnt := rfl
@[simp] theorem settleDirty_conf (r : ResultCode) (s : State) : (settleDirty r s).conf = s.conf := rfl
@[simp] theorem settleDirty_thumbPresent (r : ResultCode) (s : State) :
    (settleDirty r s).thumbPresent = s.thumbPresent := rfl
@[simp] theorem settleDirty_fwver (r : ResultCode) (s : State) : (settleDirty r s).fwver = s.fwver := rfl
@[simp] theorem settleDirty_result (r : ResultCode) (s : State) : (settleDirty r s).result = s.result := rfl
@[simp] theorem settleDirty_pc (r : ResultCode) (s : State) : (settleDirty r s).pc = s.pc := rfl
@[simp] theorem settleDirty_micro (r : ResultCode) (s : State) : (settleDirty r s).micro = s.micro := rfl
@[simp] theorem settleDirty_tx (r : ResultCode) (s : State) : (settleDirty r s).tx = s.tx := rfl
@[simp] theorem settleDirty_rx (r : ResultCode) (s : State) : (settleDirty r s).rx = s.rx := rfl
@[simp] theorem settleDirty_trace (r : ResultCode) (s : State) : (settleDirty r s).trace = s.trace := rfl
@[simp] theorem settleDirty_params (r : ResultCode) (s : State) : (settleDirty r s).params = s.params := rfl
@[simp] theorem settleDirty_env (r : ResultCode) (s : State) : (settleDirty r s).env = s.env := rfl

@[simp] theorem emit_phase (e : Event) (s : State) : (emit e s).phase = s.phase := rfl
@[simp] theorem emit_dirty (e : Event) (s : State) : (emit e s).dirty = s.dirty := rfl
@[simp] theorem emit_claimCnt (e : Event) (s : State) : (emit e s).claimCnt = s.claimCnt := rfl
@[simp] theorem emit_conf (e : Event) (s : State) : (emit e s).conf = s.conf := rfl
@[simp] theorem emit_thumbPresent (e : Event) (s : State) : (emit e s).thumbPresent = s.thumbPresent := rfl
@[simp] theorem emit_fwver (e : Event) (s : State) : (emit e s).fwver = s.fwver := rfl
@[simp] theorem emit_result (e : Event) (s : State) : (emit e s).result = s.result := rfl
@[simp] theorem emit_pc (e : Event) (s : State) : (emit e s).pc = s.pc := rfl
@[simp] theorem emit_micro (e : Event) (s : State) : (emit e s).micro = s.micro := rfl
@[simp] theorem emit_tx (e : Event) (s : State) : (emit e s).tx = s.tx := rfl
@[simp] theorem emit_rx (e : Event) (s : State) : (emit e s).rx = s.rx := rfl
@[simp] theorem emit_trace (e : Event) (s : State) : (emit e s).trace = s.trace ++ [e] := rfl
@[simp] theorem emit_params (e : Event) (s : State) : (emit e s).params = s.params := rfl
@[simp] theorem emit_env (e : Event) (s : State) : (emit e s).env = s.env := rfl

@[simp] theorem complete_phase (r : ResultCode) (s : State) : (complete r s).phase = s.phase := rfl
@[simp] theorem complete_dirty (r : ResultCode) (s : State) : (complete r s).dirty = s.dirty := rfl
@[simp] theorem complete_claimCnt (r : ResultCode) (s : State) : (complete r s).claimCnt = s.claimCnt := rfl
@[simp] theorem complete_conf (r : ResultCode) (s : State) : (complete r s).conf = s.conf := rfl
@[simp] theorem complete_thumbPresent (r : ResultCode) (s : State) : (complete r s).thumbPresent = s.thumbPresent := rfl
@[simp] theorem complete_fwver (r : ResultCode) (s : State) : (complete r s).fwver = s.fwver := rfl
@[simp] theorem complete_result (r : ResultCode) (s : State) : (complete r s).result = resultCode r := rfl
@[simp] theorem complete_pc (r : ResultCode) (s : State) : (complete r s).pc = s.pc := rfl
@[simp] theorem complete_micro (r : ResultCode) (s : State) : (complete r s).micro = s.micro := rfl
@[simp] theorem complete_tx (r : ResultCode) (s : State) : (complete r s).tx = s.tx := rfl
@[simp] theorem complete_rx (r : ResultCode) (s : State) : (complete r s).rx = s.rx := rfl
@[simp] theorem complete_trace (r : ResultCode) (s : State) : (complete r s).trace = s.trace ++ [.done r] := rfl
@[simp] theorem complete_params (r : ResultCode) (s : State) : (complete r s).params = s.params := rfl
@[simp] theorem complete_env (r : ResultCode) (s : State) : (complete r s).env = s.env := rfl

@[simp] theorem setStage_phase (st : Stage) (s : State) : (setStage st s).phase = s.phase := rfl
@[simp] theorem setStage_dirty (st : Stage) (s : State) : (setStage st s).dirty = s.dirty := rfl
@[simp] theorem setStage_claimCnt (st : Stage) (s : State) : (setStage st s).claimCnt = s.claimCnt := rfl
@[simp] theorem setStage_conf (st : Stage) (s : State) : (setStage st s).conf = s.conf := rfl
@[simp] theorem setStage_thumbPresent (st : Stage) (s : State) : (setStage st s).thumbPresent = s.thumbPresent := rfl
@[simp] theorem setStage_fwver (st : Stage) (s : State) : (setStage st s).fwver = s.fwver := rfl
@[simp] theorem setStage_result (st : Stage) (s : State) : (setStage st s).result = s.result := rfl
@[simp] theorem setStage_pc (st : Stage) (s : State) : (setStage st s).pc = { s.pc with stage := st } := rfl
@[simp] theorem setStage_micro (st : Stage) (s : State) : (setStage st s).micro = s.micro := rfl
@[simp] theorem setStage_tx (st : Stage) (s : State) : (setStage st s).tx = s.tx := rfl
@[simp] theorem setStage_rx (st : Stage) (s : State) : (setStage st s).rx = s.rx := rfl
@[simp] theorem setStage_trace (st : Stage) (s : State) : (setStage st s).trace = s.trace := rfl
@[simp] theorem setStage_params (st : Stage) (s : State) : (setStage st s).params = s.params := rfl
@[simp] theorem setStage_env (st : Stage) (s : State) : (setStage st s).env = s.env := rfl

@[simp] theorem setWait_phase (w : Wait) (s : State) : (setWait w s).phase = s.phase := rfl
@[simp] theorem setWait_dirty (w : Wait) (s : State) : (setWait w s).dirty = s.dirty := rfl
@[simp] theorem setWait_claimCnt (w : Wait) (s : State) : (setWait w s).claimCnt = s.claimCnt := rfl
@[simp] theorem setWait_conf (w : Wait) (s : State) : (setWait w s).conf = s.conf := rfl
@[simp] theorem setWait_thumbPresent (w : Wait) (s : State) : (setWait w s).thumbPresent = s.thumbPresent := rfl
@[simp] theorem setWait_fwver (w : Wait) (s : State) : (setWait w s).fwver = s.fwver := rfl
@[simp] theorem setWait_result (w : Wait) (s : State) : (setWait w s).result = s.result := rfl
@[simp] theorem setWait_pc (w : Wait) (s : State) : (setWait w s).pc = { s.pc with wait := w } := rfl
@[simp] theorem setWait_micro (w : Wait) (s : State) : (setWait w s).micro = s.micro := rfl
@[simp] theorem setWait_tx (w : Wait) (s : State) : (setWait w s).tx = s.tx := rfl
@[simp] theorem setWait_rx (w : Wait) (s : State) : (setWait w s).rx = s.rx := rfl
@[simp] theorem setWait_trace (w : Wait) (s : State) : (setWait w s).trace = s.trace := rfl
@[simp] theorem setWait_params (w : Wait) (s : State) : (setWait w s).params = s.params := rfl
@[simp] theorem setWait_env (w : Wait) (s : State) : (setWait w s).env = s.env := rfl

@[simp] theorem setPc_phase (p : SeqPc) (s : State) : (setPc p s).phase = s.phase := rfl
@[simp] theorem setPc_dirty (p : SeqPc) (s : State) : (setPc p s).dirty = s.dirty := rfl
@[simp] theorem setPc_claimCnt (p : SeqPc) (s : State) : (setPc p s).claimCnt = s.claimCnt := rfl
@[simp] theorem setPc_conf (p : SeqPc) (s : State) : (setPc p s).conf = s.conf := rfl
@[simp] theorem setPc_thumbPresent (p : SeqPc) (s : State) : (setPc p s).thumbPresent = s.thumbPresent := rfl
@[simp] theorem setPc_fwver (p : SeqPc) (s : State) : (setPc p s).fwver = s.fwver := rfl
@[simp] theorem setPc_result (p : SeqPc) (s : State) : (setPc p s).result = s.result := rfl
@[simp] theorem setPc_pc (p : SeqPc) (s : State) : (setPc p s).pc = p := rfl
@[simp] theorem setPc_micro (p : SeqPc) (s : State) : (setPc p s).micro = s.micro := rfl
@[simp] theorem setPc_tx (p : SeqPc) (s : State) : (setPc p s).tx = s.tx := rfl
@[simp] theorem setPc_rx (p : SeqPc) (s : State) : (setPc p s).rx = s.rx := rfl
@[simp] theorem setPc_trace (p : SeqPc) (s : State) : (setPc p s).trace = s.trace := rfl
@[simp] theorem setPc_params (p : SeqPc) (s : State) : (setPc p s).params = s.params := rfl
@[simp] theorem setPc_env (p : SeqPc) (s : State) : (setPc p s).env = s.env := rfl

@[simp] theorem setPhase_phase (p : Phase) (s : State) : (setPhase p s).phase = p := rfl
@[simp] theorem setPhase_dirty (p : Phase) (s : State) : (setPhase p s).dirty = s.dirty := rfl
@[simp] theorem setPhase_claimCnt (p : Phase) (s : State) : (setPhase p s).claimCnt = s.claimCnt := rfl
@[simp] theorem setPhase_conf (p : Phase) (s : State) : (setPhase p s).conf = s.conf := rfl
@[simp] theorem setPhase_thumbPresent (p : Phase) (s : State) : (setPhase p s).thumbPresent = s.thumbPresent := rfl
@[simp] theorem setPhase_fwver (p : Phase) (s : State) : (setPhase p s).fwver = s.fwver := rfl
@[simp] theorem setPhase_result (p : Phase) (s : State) : (setPhase p s).result = s.result := rfl
@[simp] theorem setPhase_pc (p : Phase) (s : State) : (setPhase p s).pc = s.pc := rfl
@[simp] theorem setPhase_micro (p : Phase) (s : State) : (setPhase p s).micro = s.micro := rfl
@[simp] theorem setPhase_tx (p : Phase) (s : State) : (setPhase p s).tx = s.tx := rfl
@[simp] theorem setPhase_rx (p : Phase) (s : State) : (setPhase p s).rx = s.rx := rfl
@[simp] theorem setPhase_trace (p : Phase) (s : State) : (setPhase p s).trace = s.trace := rfl
@[simp] theorem setPhase_params (p : Phase) (s : State) : (setPhase p s).params = s.params := rfl
@[simp] theorem setPhase_env (p : Phase) (s : State) : (setPhase p s).env = s.env := rfl

@[simp] theorem setClaims_phase (n : BitVec 8) (s : State) : (setClaims n s).phase = s.phase := rfl
@[simp] theorem setClaims_dirty (n : BitVec 8) (s : State) : (setClaims n s).dirty = s.dirty := rfl
@[simp] theorem setClaims_claimCnt (n : BitVec 8) (s : State) : (setClaims n s).claimCnt = n := rfl
@[simp] theorem setClaims_conf (n : BitVec 8) (s : State) : (setClaims n s).conf = s.conf := rfl
@[simp] theorem setClaims_thumbPresent (n : BitVec 8) (s : State) : (setClaims n s).thumbPresent = s.thumbPresent := rfl
@[simp] theorem setClaims_fwver (n : BitVec 8) (s : State) : (setClaims n s).fwver = s.fwver := rfl
@[simp] theorem setClaims_result (n : BitVec 8) (s : State) : (setClaims n s).result = s.result := rfl
@[simp] theorem setClaims_pc (n : BitVec 8) (s : State) : (setClaims n s).pc = s.pc := rfl
@[simp] theorem setClaims_micro (n : BitVec 8) (s : State) : (setClaims n s).micro = s.micro := rfl
@[simp] theorem setClaims_tx (n : BitVec 8) (s : State) : (setClaims n s).tx = s.tx := rfl
@[simp] theorem setClaims_rx (n : BitVec 8) (s : State) : (setClaims n s).rx = s.rx := rfl
@[simp] theorem setClaims_trace (n : BitVec 8) (s : State) : (setClaims n s).trace = s.trace := rfl
@[simp] theorem setClaims_params (n : BitVec 8) (s : State) : (setClaims n s).params = s.params := rfl
@[simp] theorem setClaims_env (n : BitVec 8) (s : State) : (setClaims n s).env = s.env := rfl

@[simp] theorem setRattempt_phase (n : Nat) (s : State) : (setRattempt n s).phase = s.phase := rfl
@[simp] theorem setRattempt_dirty (n : Nat) (s : State) : (setRattempt n s).dirty = s.dirty := rfl
@[simp] theorem setRattempt_claimCnt (n : Nat) (s : State) : (setRattempt n s).claimCnt = s.claimCnt := rfl
@[simp] theorem setRattempt_conf (n : Nat) (s : State) : (setRattempt n s).conf = s.conf := rfl
@[simp] theorem setRattempt_thumbPresent (n : Nat) (s : State) : (setRattempt n s).thumbPresent = s.thumbPresent := rfl
@[simp] theorem setRattempt_fwver (n : Nat) (s : State) : (setRattempt n s).fwver = s.fwver := rfl
@[simp] theorem setRattempt_result (n : Nat) (s : State) : (setRattempt n s).result = s.result := rfl
@[simp] theorem setRattempt_pc (n : Nat) (s : State) : (setRattempt n s).pc = s.pc := rfl
@[simp] theorem setRattempt_micro (n : Nat) (s : State) :
    (setRattempt n s).micro = { s.micro with rattempt := n } := rfl
@[simp] theorem setRattempt_tx (n : Nat) (s : State) : (setRattempt n s).tx = s.tx := rfl
@[simp] theorem setRattempt_rx (n : Nat) (s : State) : (setRattempt n s).rx = s.rx := rfl
@[simp] theorem setRattempt_trace (n : Nat) (s : State) : (setRattempt n s).trace = s.trace := rfl
@[simp] theorem setRattempt_params (n : Nat) (s : State) : (setRattempt n s).params = s.params := rfl
@[simp] theorem setRattempt_env (n : Nat) (s : State) : (setRattempt n s).env = s.env := rfl

@[simp] theorem setPattempt_phase (n : Nat) (s : State) : (setPattempt n s).phase = s.phase := rfl
@[simp] theorem setPattempt_dirty (n : Nat) (s : State) : (setPattempt n s).dirty = s.dirty := rfl
@[simp] theorem setPattempt_claimCnt (n : Nat) (s : State) : (setPattempt n s).claimCnt = s.claimCnt := rfl
@[simp] theorem setPattempt_conf (n : Nat) (s : State) : (setPattempt n s).conf = s.conf := rfl
@[simp] theorem setPattempt_thumbPresent (n : Nat) (s : State) : (setPattempt n s).thumbPresent = s.thumbPresent := rfl
@[simp] theorem setPattempt_fwver (n : Nat) (s : State) : (setPattempt n s).fwver = s.fwver := rfl
@[simp] theorem setPattempt_result (n : Nat) (s : State) : (setPattempt n s).result = s.result := rfl
@[simp] theorem setPattempt_pc (n : Nat) (s : State) : (setPattempt n s).pc = s.pc := rfl
@[simp] theorem setPattempt_micro (n : Nat) (s : State) :
    (setPattempt n s).micro = { s.micro with pattempt := n } := rfl
@[simp] theorem setPattempt_tx (n : Nat) (s : State) : (setPattempt n s).tx = s.tx := rfl
@[simp] theorem setPattempt_rx (n : Nat) (s : State) : (setPattempt n s).rx = s.rx := rfl
@[simp] theorem setPattempt_trace (n : Nat) (s : State) : (setPattempt n s).trace = s.trace := rfl
@[simp] theorem setPattempt_params (n : Nat) (s : State) : (setPattempt n s).params = s.params := rfl
@[simp] theorem setPattempt_env (n : Nat) (s : State) : (setPattempt n s).env = s.env := rfl

@[simp] theorem setLedIndex_phase (n : Nat) (s : State) : (setLedIndex n s).phase = s.phase := rfl
@[simp] theorem setLedIndex_dirty (n : Nat) (s : State) : (setLedIndex n s).dirty = s.dirty := rfl
@[simp] theorem setLedIndex_claimCnt (n : Nat) (s : State) : (setLedIndex n s).claimCnt = s.claimCnt := rfl
@[simp] theorem setLedIndex_conf (n : Nat) (s : State) : (setLedIndex n s).conf = s.conf := rfl
@[simp] theorem setLedIndex_thumbPresent (n : Nat) (s : State) : (setLedIndex n s).thumbPresent = s.thumbPresent := rfl
@[simp] theorem setLedIndex_fwver (n : Nat) (s : State) : (setLedIndex n s).fwver = s.fwver := rfl
@[simp] theorem setLedIndex_result (n : Nat) (s : State) : (setLedIndex n s).result = s.result := rfl
@[simp] theorem setLedIndex_pc (n : Nat) (s : State) : (setLedIndex n s).pc = s.pc := rfl
@[simp] theorem setLedIndex_micro (n : Nat) (s : State) : (setLedIndex n s).micro = { s.micro with led := n } := rfl
@[simp] theorem setLedIndex_tx (n : Nat) (s : State) : (setLedIndex n s).tx = s.tx := rfl
@[simp] theorem setLedIndex_rx (n : Nat) (s : State) : (setLedIndex n s).rx = s.rx := rfl
@[simp] theorem setLedIndex_trace (n : Nat) (s : State) : (setLedIndex n s).trace = s.trace := rfl
@[simp] theorem setLedIndex_params (n : Nat) (s : State) : (setLedIndex n s).params = s.params := rfl
@[simp] theorem setLedIndex_env (n : Nat) (s : State) : (setLedIndex n s).env = s.env := rfl

@[simp] theorem setForce_phase (b : Bool) (s : State) : (setForce b s).phase = s.phase := rfl
@[simp] theorem setForce_dirty (b : Bool) (s : State) : (setForce b s).dirty = s.dirty := rfl
@[simp] theorem setForce_claimCnt (b : Bool) (s : State) : (setForce b s).claimCnt = s.claimCnt := rfl
@[simp] theorem setForce_conf (b : Bool) (s : State) : (setForce b s).conf = s.conf := rfl
@[simp] theorem setForce_thumbPresent (b : Bool) (s : State) : (setForce b s).thumbPresent = s.thumbPresent := rfl
@[simp] theorem setForce_fwver (b : Bool) (s : State) : (setForce b s).fwver = s.fwver := rfl
@[simp] theorem setForce_result (b : Bool) (s : State) : (setForce b s).result = s.result := rfl
@[simp] theorem setForce_pc (b : Bool) (s : State) : (setForce b s).pc = s.pc := rfl
@[simp] theorem setForce_micro (b : Bool) (s : State) : (setForce b s).micro = { s.micro with force := b } := rfl
@[simp] theorem setForce_tx (b : Bool) (s : State) : (setForce b s).tx = s.tx := rfl
@[simp] theorem setForce_rx (b : Bool) (s : State) : (setForce b s).rx = s.rx := rfl
@[simp] theorem setForce_trace (b : Bool) (s : State) : (setForce b s).trace = s.trace := rfl
@[simp] theorem setForce_params (b : Bool) (s : State) : (setForce b s).params = s.params := rfl
@[simp] theorem setForce_env (b : Bool) (s : State) : (setForce b s).env = s.env := rfl

@[simp] theorem setCur_phase (f : Frame) (s : State) : (setCur f s).phase = s.phase := rfl
@[simp] theorem setCur_dirty (f : Frame) (s : State) : (setCur f s).dirty = s.dirty := rfl
@[simp] theorem setCur_claimCnt (f : Frame) (s : State) : (setCur f s).claimCnt = s.claimCnt := rfl
@[simp] theorem setCur_conf (f : Frame) (s : State) : (setCur f s).conf = s.conf := rfl
@[simp] theorem setCur_thumbPresent (f : Frame) (s : State) : (setCur f s).thumbPresent = s.thumbPresent := rfl
@[simp] theorem setCur_fwver (f : Frame) (s : State) : (setCur f s).fwver = s.fwver := rfl
@[simp] theorem setCur_result (f : Frame) (s : State) : (setCur f s).result = s.result := rfl
@[simp] theorem setCur_pc (f : Frame) (s : State) : (setCur f s).pc = s.pc := rfl
@[simp] theorem setCur_micro (f : Frame) (s : State) : (setCur f s).micro = { s.micro with cur := f } := rfl
@[simp] theorem setCur_tx (f : Frame) (s : State) : (setCur f s).tx = s.tx := rfl
@[simp] theorem setCur_rx (f : Frame) (s : State) : (setCur f s).rx = s.rx := rfl
@[simp] theorem setCur_trace (f : Frame) (s : State) : (setCur f s).trace = s.trace := rfl
@[simp] theorem setCur_params (f : Frame) (s : State) : (setCur f s).params = s.params := rfl
@[simp] theorem setCur_env (f : Frame) (s : State) : (setCur f s).env = s.env := rfl

@[simp] theorem xferWrite_phase (f : Frame) (s : State) : (xferWrite f s).phase = s.phase := rfl
@[simp] theorem xferWrite_dirty (f : Frame) (s : State) : (xferWrite f s).dirty = s.dirty := rfl
@[simp] theorem xferWrite_claimCnt (f : Frame) (s : State) : (xferWrite f s).claimCnt = s.claimCnt := rfl
@[simp] theorem xferWrite_conf (f : Frame) (s : State) : (xferWrite f s).conf = s.conf := rfl
@[simp] theorem xferWrite_thumbPresent (f : Frame) (s : State) : (xferWrite f s).thumbPresent = s.thumbPresent := rfl
@[simp] theorem xferWrite_fwver (f : Frame) (s : State) : (xferWrite f s).fwver = s.fwver := rfl
@[simp] theorem xferWrite_result (f : Frame) (s : State) : (xferWrite f s).result = s.result := rfl
@[simp] theorem xferWrite_pc (f : Frame) (s : State) : (xferWrite f s).pc = { s.pc with wait := .write } := rfl
@[simp] theorem xferWrite_micro (f : Frame) (s : State) : (xferWrite f s).micro = s.micro := rfl
@[simp] theorem xferWrite_tx (f : Frame) (s : State) : (xferWrite f s).tx = s.tx := rfl
@[simp] theorem xferWrite_rx (f : Frame) (s : State) : (xferWrite f s).rx = s.rx := rfl
@[simp] theorem xferWrite_trace (f : Frame) (s : State) :
    (xferWrite f s).trace = s.trace ++ [.wrReq (writeSetup s.params) f] := rfl
@[simp] theorem xferWrite_params (f : Frame) (s : State) : (xferWrite f s).params = s.params := rfl
@[simp] theorem xferWrite_env (f : Frame) (s : State) : (xferWrite f s).env = s.env := rfl

@[simp] theorem xferRead_phase (s : State) : (xferRead s).phase = s.phase := rfl
@[simp] theorem xferRead_dirty (s : State) : (xferRead s).dirty = s.dirty := rfl
@[simp] theorem xferRead_claimCnt (s : State) : (xferRead s).claimCnt = s.claimCnt := rfl
@[simp] theorem xferRead_conf (s : State) : (xferRead s).conf = s.conf := rfl
@[simp] theorem xferRead_thumbPresent (s : State) : (xferRead s).thumbPresent = s.thumbPresent := rfl
@[simp] theorem xferRead_fwver (s : State) : (xferRead s).fwver = s.fwver := rfl
@[simp] theorem xferRead_result (s : State) : (xferRead s).result = s.result := rfl
@[simp] theorem xferRead_pc (s : State) : (xferRead s).pc = { s.pc with wait := .read } := rfl
@[simp] theorem xferRead_micro (s : State) : (xferRead s).micro = s.micro := rfl
@[simp] theorem xferRead_tx (s : State) : (xferRead s).tx = s.tx := rfl
@[simp] theorem xferRead_rx (s : State) : (xferRead s).rx = s.rx := rfl
@[simp] theorem xferRead_trace (s : State) : (xferRead s).trace = s.trace ++ [.rdReq (readSetup s.params)] := rfl
@[simp] theorem xferRead_params (s : State) : (xferRead s).params = s.params := rfl
@[simp] theorem xferRead_env (s : State) : (xferRead s).env = s.env := rfl

@[simp] theorem sleepFor_phase (ms : Nat) (s : State) : (sleepFor ms s).phase = s.phase := rfl
@[simp] theorem sleepFor_dirty (ms : Nat) (s : State) : (sleepFor ms s).dirty = s.dirty := rfl
@[simp] theorem sleepFor_claimCnt (ms : Nat) (s : State) : (sleepFor ms s).claimCnt = s.claimCnt := rfl
@[simp] theorem sleepFor_conf (ms : Nat) (s : State) : (sleepFor ms s).conf = s.conf := rfl
@[simp] theorem sleepFor_thumbPresent (ms : Nat) (s : State) : (sleepFor ms s).thumbPresent = s.thumbPresent := rfl
@[simp] theorem sleepFor_fwver (ms : Nat) (s : State) : (sleepFor ms s).fwver = s.fwver := rfl
@[simp] theorem sleepFor_result (ms : Nat) (s : State) : (sleepFor ms s).result = s.result := rfl
@[simp] theorem sleepFor_pc (ms : Nat) (s : State) : (sleepFor ms s).pc = { s.pc with wait := .sleep } := rfl
@[simp] theorem sleepFor_micro (ms : Nat) (s : State) : (sleepFor ms s).micro = s.micro := rfl
@[simp] theorem sleepFor_tx (ms : Nat) (s : State) : (sleepFor ms s).tx = s.tx := rfl
@[simp] theorem sleepFor_rx (ms : Nat) (s : State) : (sleepFor ms s).rx = s.rx := rfl
@[simp] theorem sleepFor_trace (ms : Nat) (s : State) : (sleepFor ms s).trace = s.trace ++ [.sleepReq ms] := rfl
@[simp] theorem sleepFor_params (ms : Nat) (s : State) : (sleepFor ms s).params = s.params := rfl
@[simp] theorem sleepFor_env (ms : Nat) (s : State) : (sleepFor ms s).env = s.env := rfl

@[simp] theorem dropHostMove_phase (s : State) : (dropHostMove s).phase = s.phase := rfl
@[simp] theorem dropHostMove_dirty (s : State) : (dropHostMove s).dirty = s.dirty := rfl
@[simp] theorem dropHostMove_claimCnt (s : State) : (dropHostMove s).claimCnt = s.claimCnt := rfl
@[simp] theorem dropHostMove_conf (s : State) : (dropHostMove s).conf = s.conf := rfl
@[simp] theorem dropHostMove_thumbPresent (s : State) : (dropHostMove s).thumbPresent = s.thumbPresent := rfl
@[simp] theorem dropHostMove_fwver (s : State) : (dropHostMove s).fwver = s.fwver := rfl
@[simp] theorem dropHostMove_result (s : State) : (dropHostMove s).result = s.result := rfl
@[simp] theorem dropHostMove_pc (s : State) : (dropHostMove s).pc = s.pc := rfl
@[simp] theorem dropHostMove_micro (s : State) : (dropHostMove s).micro = s.micro := rfl
@[simp] theorem dropHostMove_tx (s : State) : (dropHostMove s).tx = s.tx := rfl
@[simp] theorem dropHostMove_rx (s : State) : (dropHostMove s).rx = s.rx := rfl
@[simp] theorem dropHostMove_trace (s : State) : (dropHostMove s).trace = s.trace := rfl
@[simp] theorem dropHostMove_params (s : State) : (dropHostMove s).params = s.params := rfl
@[simp] theorem dropHostMove_env (s : State) : (dropHostMove s).env = { s.env with host := s.env.host.tail } := rfl

@[simp] theorem setBuffer_tx_phase (s : State) (m : Memory) : (setBuffer s .tx m).phase = s.phase := rfl
@[simp] theorem setBuffer_tx_dirty (s : State) (m : Memory) : (setBuffer s .tx m).dirty = s.dirty := rfl
@[simp] theorem setBuffer_tx_claimCnt (s : State) (m : Memory) : (setBuffer s .tx m).claimCnt = s.claimCnt := rfl
@[simp] theorem setBuffer_tx_conf (s : State) (m : Memory) : (setBuffer s .tx m).conf = s.conf := rfl
@[simp] theorem setBuffer_tx_thumbPresent (s : State) (m : Memory) :
    (setBuffer s .tx m).thumbPresent = s.thumbPresent := rfl
@[simp] theorem setBuffer_tx_fwver (s : State) (m : Memory) : (setBuffer s .tx m).fwver = s.fwver := rfl
@[simp] theorem setBuffer_tx_result (s : State) (m : Memory) : (setBuffer s .tx m).result = s.result := rfl
@[simp] theorem setBuffer_tx_pc (s : State) (m : Memory) : (setBuffer s .tx m).pc = s.pc := rfl
@[simp] theorem setBuffer_tx_micro (s : State) (m : Memory) : (setBuffer s .tx m).micro = s.micro := rfl
@[simp] theorem setBuffer_tx_tx (s : State) (m : Memory) : (setBuffer s .tx m).tx = m := rfl
@[simp] theorem setBuffer_tx_rx (s : State) (m : Memory) : (setBuffer s .tx m).rx = s.rx := rfl
@[simp] theorem setBuffer_tx_trace (s : State) (m : Memory) : (setBuffer s .tx m).trace = s.trace := rfl
@[simp] theorem setBuffer_tx_params (s : State) (m : Memory) : (setBuffer s .tx m).params = s.params := rfl
@[simp] theorem setBuffer_tx_env (s : State) (m : Memory) : (setBuffer s .tx m).env = s.env := rfl

@[simp] theorem setBuffer_rx_phase (s : State) (m : Memory) : (setBuffer s .rx m).phase = s.phase := rfl
@[simp] theorem setBuffer_rx_dirty (s : State) (m : Memory) : (setBuffer s .rx m).dirty = s.dirty := rfl
@[simp] theorem setBuffer_rx_claimCnt (s : State) (m : Memory) : (setBuffer s .rx m).claimCnt = s.claimCnt := rfl
@[simp] theorem setBuffer_rx_conf (s : State) (m : Memory) : (setBuffer s .rx m).conf = s.conf := rfl
@[simp] theorem setBuffer_rx_thumbPresent (s : State) (m : Memory) :
    (setBuffer s .rx m).thumbPresent = s.thumbPresent := rfl
@[simp] theorem setBuffer_rx_fwver (s : State) (m : Memory) : (setBuffer s .rx m).fwver = s.fwver := rfl
@[simp] theorem setBuffer_rx_result (s : State) (m : Memory) : (setBuffer s .rx m).result = s.result := rfl
@[simp] theorem setBuffer_rx_pc (s : State) (m : Memory) : (setBuffer s .rx m).pc = s.pc := rfl
@[simp] theorem setBuffer_rx_micro (s : State) (m : Memory) : (setBuffer s .rx m).micro = s.micro := rfl
@[simp] theorem setBuffer_rx_tx (s : State) (m : Memory) : (setBuffer s .rx m).tx = s.tx := rfl
@[simp] theorem setBuffer_rx_rx (s : State) (m : Memory) : (setBuffer s .rx m).rx = m := rfl
@[simp] theorem setBuffer_rx_trace (s : State) (m : Memory) : (setBuffer s .rx m).trace = s.trace := rfl
@[simp] theorem setBuffer_rx_params (s : State) (m : Memory) : (setBuffer s .rx m).params = s.params := rfl
@[simp] theorem setBuffer_rx_env (s : State) (m : Memory) : (setBuffer s .rx m).env = s.env := rfl

@[simp] theorem setLedState_phase (i : Nat) (c : BitVec 2) (s : State) : (setLedState i c s).phase = s.phase := by
  unfold setLedState; split <;> rfl
@[simp] theorem setLedState_dirty (i : Nat) (c : BitVec 2) (s : State) : (setLedState i c s).dirty = s.dirty := by
  unfold setLedState; split <;> rfl
@[simp] theorem setLedState_claimCnt (i : Nat) (c : BitVec 2) (s : State) : (setLedState i c s).claimCnt = s.claimCnt := by
  unfold setLedState; split <;> rfl
@[simp] theorem setLedState_thumbPresent (i : Nat) (c : BitVec 2) (s : State) : (setLedState i c s).thumbPresent = s.thumbPresent := by
  unfold setLedState; split <;> rfl
@[simp] theorem setLedState_fwver (i : Nat) (c : BitVec 2) (s : State) : (setLedState i c s).fwver = s.fwver := by
  unfold setLedState; split <;> rfl
@[simp] theorem setLedState_result (i : Nat) (c : BitVec 2) (s : State) : (setLedState i c s).result = s.result := by
  unfold setLedState; split <;> rfl
@[simp] theorem setLedState_pc (i : Nat) (c : BitVec 2) (s : State) : (setLedState i c s).pc = s.pc := by
  unfold setLedState; split <;> rfl
@[simp] theorem setLedState_micro (i : Nat) (c : BitVec 2) (s : State) : (setLedState i c s).micro = s.micro := by
  unfold setLedState; split <;> rfl
@[simp] theorem setLedState_tx (i : Nat) (c : BitVec 2) (s : State) : (setLedState i c s).tx = s.tx := by
  unfold setLedState; split <;> rfl
@[simp] theorem setLedState_rx (i : Nat) (c : BitVec 2) (s : State) : (setLedState i c s).rx = s.rx := by
  unfold setLedState; split <;> rfl
@[simp] theorem setLedState_trace (i : Nat) (c : BitVec 2) (s : State) : (setLedState i c s).trace = s.trace := by
  unfold setLedState; split <;> rfl
@[simp] theorem setLedState_params (i : Nat) (c : BitVec 2) (s : State) : (setLedState i c s).params = s.params := by
  unfold setLedState; split <;> rfl
@[simp] theorem setLedState_env (i : Nat) (c : BitVec 2) (s : State) : (setLedState i c s).env = s.env := by
  unfold setLedState; split <;> rfl

/-- SETLED's write reaches the one LED addressed and no other configuration field (R195). -/
theorem setLedState_conf (i : Nat) (c : BitVec 2) (s : State) (h : i < 3) :
    ledState (setLedState i c s).conf i = c ∧
      (∀ j, j ≠ i → ledState (setLedState i c s).conf j = ledState s.conf j) ∧
      (setLedState i c s).conf.freq = s.conf.freq ∧ (setLedState i c s).conf.xmap = s.conf.xmap ∧
      (setLedState i c s).conf.ymap = s.conf.ymap ∧ (setLedState i c s).conf.variant = s.conf.variant := by
  obtain rfl | rfl | rfl : i = 0 ∨ i = 1 ∨ i = 2 := by omega
  all_goals
    refine ⟨rfl, fun j hj => ?_, rfl, rfl, rfl, rfl⟩
    rcases j with _ | _ | _ | j <;> first | rfl | omega

/-! ## The response logs leave everything but the trace -/

@[simp] theorem logChecksum_phase (f : Frame) (s : State) : (logChecksum f s).phase = s.phase := by
  unfold logChecksum; split <;> rfl
@[simp] theorem logChecksum_dirty (f : Frame) (s : State) : (logChecksum f s).dirty = s.dirty := by
  unfold logChecksum; split <;> rfl
@[simp] theorem logChecksum_claimCnt (f : Frame) (s : State) : (logChecksum f s).claimCnt = s.claimCnt := by
  unfold logChecksum; split <;> rfl
@[simp] theorem logChecksum_conf (f : Frame) (s : State) : (logChecksum f s).conf = s.conf := by
  unfold logChecksum; split <;> rfl
@[simp] theorem logChecksum_thumbPresent (f : Frame) (s : State) : (logChecksum f s).thumbPresent = s.thumbPresent := by
  unfold logChecksum; split <;> rfl
@[simp] theorem logChecksum_fwver (f : Frame) (s : State) : (logChecksum f s).fwver = s.fwver := by
  unfold logChecksum; split <;> rfl
@[simp] theorem logChecksum_result (f : Frame) (s : State) : (logChecksum f s).result = s.result := by
  unfold logChecksum; split <;> rfl
@[simp] theorem logChecksum_pc (f : Frame) (s : State) : (logChecksum f s).pc = s.pc := by
  unfold logChecksum; split <;> rfl
@[simp] theorem logChecksum_micro (f : Frame) (s : State) : (logChecksum f s).micro = s.micro := by
  unfold logChecksum; split <;> rfl
@[simp] theorem logChecksum_tx (f : Frame) (s : State) : (logChecksum f s).tx = s.tx := by
  unfold logChecksum; split <;> rfl
@[simp] theorem logChecksum_rx (f : Frame) (s : State) : (logChecksum f s).rx = s.rx := by
  unfold logChecksum; split <;> rfl
@[simp] theorem logChecksum_params (f : Frame) (s : State) : (logChecksum f s).params = s.params := by
  unfold logChecksum; split <;> rfl
@[simp] theorem logChecksum_env (f : Frame) (s : State) : (logChecksum f s).env = s.env := by
  unfold logChecksum; split <;> rfl
@[simp] theorem logStatus_phase (f : Frame) (s : State) : (logStatus f s).phase = s.phase := by
  unfold logStatus; split <;> rfl
@[simp] theorem logStatus_dirty (f : Frame) (s : State) : (logStatus f s).dirty = s.dirty := by
  unfold logStatus; split <;> rfl
@[simp] theorem logStatus_claimCnt (f : Frame) (s : State) : (logStatus f s).claimCnt = s.claimCnt := by
  unfold logStatus; split <;> rfl
@[simp] theorem logStatus_conf (f : Frame) (s : State) : (logStatus f s).conf = s.conf := by
  unfold logStatus; split <;> rfl
@[simp] theorem logStatus_thumbPresent (f : Frame) (s : State) : (logStatus f s).thumbPresent = s.thumbPresent := by
  unfold logStatus; split <;> rfl
@[simp] theorem logStatus_fwver (f : Frame) (s : State) : (logStatus f s).fwver = s.fwver := by
  unfold logStatus; split <;> rfl
@[simp] theorem logStatus_result (f : Frame) (s : State) : (logStatus f s).result = s.result := by
  unfold logStatus; split <;> rfl
@[simp] theorem logStatus_pc (f : Frame) (s : State) : (logStatus f s).pc = s.pc := by
  unfold logStatus; split <;> rfl
@[simp] theorem logStatus_micro (f : Frame) (s : State) : (logStatus f s).micro = s.micro := by
  unfold logStatus; split <;> rfl
@[simp] theorem logStatus_tx (f : Frame) (s : State) : (logStatus f s).tx = s.tx := by
  unfold logStatus; split <;> rfl
@[simp] theorem logStatus_rx (f : Frame) (s : State) : (logStatus f s).rx = s.rx := by
  unfold logStatus; split <;> rfl
@[simp] theorem logStatus_params (f : Frame) (s : State) : (logStatus f s).params = s.params := by
  unfold logStatus; split <;> rfl
@[simp] theorem logStatus_env (f : Frame) (s : State) : (logStatus f s).env = s.env := by
  unfold logStatus; split <;> rfl

end Sys2Proof.Machine
end

