-- ==== Sys2Proof/Laws/Ops.lean ====
section
/-! SUPPORT. One lemma per shared operation and routine: all it can do. Callers cite these and unfold nothing. -/

namespace Sys2Proof.Machine

/-- The state sendCommand(F) waits in: `cur` holds F, TX holds F with its checksum byte recomputed, that frame is the last
WrReq, and the wait is WRITE (R106, R120, R129). -/
def sent (f : Frame) (s : State) : State :=
  xferWrite (withChecksum f)
    (setBuffer (setCur f s) .tx (Memory.writeBytes s.tx 0 (withChecksum f).bytes))

@[simp] theorem sent_phase (f : Frame) (s : State) : (sent f s).phase = s.phase := rfl
@[simp] theorem sent_dirty (f : Frame) (s : State) : (sent f s).dirty = s.dirty := rfl
@[simp] theorem sent_claimCnt (f : Frame) (s : State) : (sent f s).claimCnt = s.claimCnt := rfl
@[simp] theorem sent_conf (f : Frame) (s : State) : (sent f s).conf = s.conf := rfl
@[simp] theorem sent_thumbPresent (f : Frame) (s : State) : (sent f s).thumbPresent = s.thumbPresent := rfl
@[simp] theorem sent_fwver (f : Frame) (s : State) : (sent f s).fwver = s.fwver := rfl
@[simp] theorem sent_result (f : Frame) (s : State) : (sent f s).result = s.result := rfl
@[simp] theorem sent_pc (f : Frame) (s : State) : (sent f s).pc = { s.pc with wait := .write } := rfl
@[simp] theorem sent_micro (f : Frame) (s : State) : (sent f s).micro = { s.micro with cur := f } := rfl
@[simp] theorem sent_tx (f : Frame) (s : State) :
    (sent f s).tx = Memory.writeBytes s.tx 0 (withChecksum f).bytes := rfl
@[simp] theorem sent_rx (f : Frame) (s : State) : (sent f s).rx = s.rx := rfl
@[simp] theorem sent_trace (f : Frame) (s : State) :
    (sent f s).trace = s.trace ++ [.wrReq (writeSetup s.params) (withChecksum f)] := rfl
@[simp] theorem sent_params (f : Frame) (s : State) : (sent f s).params = s.params := rfl
@[simp] theorem sent_env (f : Frame) (s : State) : (sent f s).env = s.env := rfl

/-- Everything sendCommand does up to its first wait (R129). -/
theorem sendCommand_eq (f : Frame) (s : State) : sendCommand f s = .next (sent f s) := by
  have hf := f.len
  have e1 : memWrite .tx 0 f.bytes (setCur f s) =
      .ok (setBuffer (setCur f s) .tx (Memory.writeBytes s.tx 0 f.bytes)) := memWrite_ok (by simp [hf])
  have e2 : memRead .tx 0 frameLen (setBuffer (setCur f s) .tx (Memory.writeBytes s.tx 0 f.bytes)) = .ok f.bytes :=
    memRead_ok (by simp) (by
      have := Memory.readBytes_writeBytes s.tx 0 f.bytes
      rw [hf] at this; exact this)
  have e3 : memWrite .tx ckOffset [checksum f] (setBuffer (setCur f s) .tx (Memory.writeBytes s.tx 0 f.bytes)) =
      .ok (setBuffer (setCur f s) .tx (Memory.writeBytes s.tx 0 (withChecksum f).bytes)) := by
    rw [memWrite_ok (by simp [ckOffset, frameLen])]
    have := Memory.writeByte_writeBytes f.bytes s.tx 0 88 (checksum f) (by rw [hf]; decide)
    rw [Nat.zero_add] at this
    show Access.ok (setBuffer (setCur f s) .tx (Memory.writeByte (Memory.writeBytes s.tx 0 f.bytes) 88 (checksum f))) = _
    rw [this]; rfl
  have e4 : memRead .tx 0 frameLen (setBuffer (setCur f s) .tx (Memory.writeBytes s.tx 0 (withChecksum f).bytes)) =
      .ok (withChecksum f).bytes :=
    memRead_ok (by simp) (by
      have := Memory.readBytes_writeBytes s.tx 0 (withChecksum f).bytes
      rw [(withChecksum f).len] at this; exact this)
  simp only [sendCommand, e1, Access.elim, e2, frameOf_bytes, e3, e4]
  rfl

/-- TX after a send, byte by byte (R129): the frame sent, and beyond it what was there. -/
theorem peek_tx_sent (f : Frame) (s : State) (a : Nat) :
    peek (sent f s) .tx a = if a < 90 then some (byteAt (withChecksum f) a) else peek s .tx a := by
  have h := Memory.readByte_writeBytes (withChecksum f).bytes s.tx 0 a
  rw [(withChecksum f).len] at h
  show Memory.readByte (Memory.writeBytes s.tx 0 (withChecksum f).bytes) a = _
  rw [h]
  by_cases ha : a < 90
  · rw [if_pos ⟨Nat.zero_le _, by simpa using ha⟩, if_pos ha, Nat.sub_zero, bytes_getElem? _ ha]
  · rw [if_neg (by simpa using ha), if_neg ha]; rfl

@[simp] theorem peek_rx_sent (f : Frame) (s : State) (a : Nat) : peek (sent f s) .rx a = peek s .rx a := rfl

/-! ## The five frames -/

@[simp] theorem withChecksum_fwqueryFrame : withChecksum fwqueryFrame = fwqueryFrame := withChecksum_encodeFrame _ _ _
@[simp] theorem withChecksum_ressetLegacyFrame (vx vy : Byte) :
    withChecksum (ressetLegacyFrame vx vy) = ressetLegacyFrame vx vy := withChecksum_encodeFrame _ _ _
@[simp] theorem withChecksum_ressetExtFrame (x y : BitVec 16) :
    withChecksum (ressetExtFrame x y) = ressetExtFrame x y := withChecksum_encodeFrame _ _ _
@[simp] theorem withChecksum_ledsetFrame (s0 s1 on : Byte) :
    withChecksum (ledsetFrame s0 s1 on) = ledsetFrame s0 s1 on := withChecksum_encodeFrame _ _ _
@[simp] theorem withChecksum_freqsetFrame (c : Byte) :
    withChecksum (freqsetFrame c) = freqsetFrame c := withChecksum_encodeFrame _ _ _

theorem execFwquery_eq (s : State) : execFwquery s = .next (sent fwqueryFrame s) := sendCommand_eq _ _
theorem execRessetLegacy_eq (vx vy : Byte) (s : State) :
    execRessetLegacy vx vy s = .next (sent (ressetLegacyFrame vx vy) s) := sendCommand_eq _ _
theorem execRessetExt_eq (x y : BitVec 16) (s : State) :
    execRessetExt x y s = .next (sent (ressetExtFrame x y) s) := sendCommand_eq _ _
theorem execLedset_eq (s0 s1 on : Byte) (s : State) :
    execLedset s0 s1 on s = .next (sent (ledsetFrame s0 s1 on) s) := sendCommand_eq _ _
theorem execFreqset_eq (c : Byte) (s : State) :
    execFreqset c s = .next (sent (freqsetFrame c) s) := sendCommand_eq _ _

/-! ## The sequencer's routines -/

/-- The frame RESENCODE builds (R145). -/
def resEncode (c : Conf) : Frame :=
  match c.variant with
  | .legacy => ressetLegacyFrame (legacyByte (xRes c)) (legacyByte (yRes c))
  | .extended => ressetExtFrame (extWord (xRes c)) (extWord (yRes c))

@[simp] theorem withChecksum_resEncode (c : Conf) : withChecksum (resEncode c) = resEncode c := by
  unfold resEncode; split <;> simp

/-- Step 1 of commitSeq: the RESSET frame is sent (R165). -/
theorem commitSeq_eq (s : State) : commitSeq s = .next (sent (resEncode s.conf) (setStage .res s)) := by
  unfold commitSeq sendResolution resEncode
  rw [setStage_conf]
  cases s.conf.variant
  · exact execRessetLegacy_eq _ _ _
  · exact execRessetExt_eq _ _ _

/-- Step 3 of commitSeq (R167). -/
theorem enterFreq_eq (s : State) :
    enterFreq s =
      match freqByte s.conf.freq with
      | some c => .next (sent (freqsetFrame c) (setStage .freq s))
      | none => commitReturn .invalidArgument (setStage .freq s) := by
  unfold enterFreq
  simp only [setStage_conf]
  cases freqByte s.conf.freq
  · rfl
  · exact execFreqset_eq _ _

/-- The LED frame of id k (R166). -/
def ledFrame (p : Params) (c : Conf) (k : Nat) : Frame :=
  ledsetFrame (selector p k).s0 (selector p k).s1 (onByte (ledState c k))

@[simp] theorem withChecksum_ledFrame (p : Params) (c : Conf) (k : Nat) :
    withChecksum (ledFrame p c k) = ledFrame p c k := withChecksum_ledsetFrame _ _ _

/-- Step 2 of commitSeq from id i on (R166). -/
theorem ledLoop_eq (i : Nat) (s : State) :
    ledLoop i s =
      match (ledList s.conf).find? (fun k => decide (i ≤ k)) with
      | some k => .next (sent (ledFrame s.params s.conf k) (setLedIndex k s))
      | none => enterFreq (setLedIndex ledCount s) := by
  unfold ledLoop
  cases (ledList s.conf).find? (fun k => decide (i ≤ k))
  · rfl
  · exact execLedset_eq _ _ _ _

theorem initStart_eq (s : State) :
    initStart s = .next (sent fwqueryFrame (setPattempt 1 (setStage .probe (setClaims 1#8 s)))) := by
  unfold initStart probeStart
  rw [execFwquery_eq]

theorem initProbed_eq (s : State) :
    initProbed s = .next (sent (resEncode s.conf) (setStage .res (setForce true s))) := by
  unfold initProbed
  rw [commitSeq_eq, setForce_conf]

theorem onSleepDone_eq (s : State) :
    onSleepDone s = .next (sent fwqueryFrame (setPattempt (s.micro.pattempt + 1) s)) := by
  unfold onSleepDone
  rw [execFwquery_eq]

/-- A failed probe attempt: four sleeps at most, then DeviceNotResponding (R161, R163). -/
theorem probeFailed_eq (s : State) :
    probeFailed s =
      if s.micro.pattempt < 5 then .next (sleepFor 250 s) else initFinish .deviceNotResponding s := by
  unfold probeFailed afterFailure probeAttempts probeDelayMs
  by_cases h : s.micro.pattempt < 5 <;> simp [h]

/-- A probe attempt whose exchange succeeded, RX holding the 90 bytes b (R161, R162). -/
theorem probeAnswered_eq {s : State} {b : List Byte} (h : Memory.readBytes s.rx 0 frameLen = some b) :
    probeAnswered s =
      if byteAt (frameOf b) 8 = 0#8 then probeFailed s
      else .next (sent (resEncode s.conf)
        (setStage .res (setForce true { s with fwver := be16 (byteAt (frameOf b) 8) (byteAt (frameOf b) 9) }))) := by
  have hb : b.length = frameLen := Memory.length_of_readBytes h
  have at_ : ∀ i, i < 90 → peek s .rx i = some (byteAt (frameOf b) i) := by
    intro i hi
    have := Memory.readByte_of_readBytes h i hi
    rw [Nat.zero_add] at this
    rw [← bytes_getElem? _ hi, bytes_frameOf hb]
    exact this
  have e := memRead16_ok (b := .rx) (s := s) (by decide) (at_ 8 (by omega)) (at_ 9 (by omega))
  unfold probeAnswered
  rw [e]
  simp only [Access.elim, hi8_be16]
  by_cases h8 : byteAt (frameOf b) 8 = 0#8
  · rw [if_pos h8, if_pos h8]
  · rw [if_neg h8, if_neg h8, initProbed_eq]

/-- RX after a successful read (R123). -/
def received (b : List Byte) (s : State) : State := setBuffer s .rx (Memory.writeBytes s.rx 0 b)

/-- The response check, RX holding the 90 bytes b (R129). -/
theorem checkResponse_eq {s : State} {b : List Byte} (h : Memory.readBytes s.rx 0 frameLen = some b) :
    checkResponse s = commandReturn .ok (logStatus (frameOf b) (logChecksum (frameOf b) s)) := by
  have e : memRead .rx 0 frameLen s = .ok b := memRead_ok (by simp) h
  unfold checkResponse
  rw [e]
  rfl

theorem readBytes_received {b : List Byte} (h : b.length = frameLen) (s : State) :
    Memory.readBytes (received b s).rx 0 frameLen = some b := by
  have := Memory.readBytes_writeBytes s.rx 0 b
  rw [h] at this
  exact this

/-- A read that returned exactly 90 bytes (R123, R129). -/
theorem onReadAnswer_returned {b : List Byte} (h : b.length = frameLen) (s : State) :
    onReadAnswer (.returned b) s =
      commandReturn .ok (logStatus (frameOf b) (logChecksum (frameOf b) (received b s))) := by
  have e : memWrite .rx 0 b s = .ok (received b s) := memWrite_ok (by rw [h]; simp)
  have hr : readBytesOf (.returned b) = some b := by simp [readBytesOf, h]
  unfold onReadAnswer
  rw [hr]
  simp only [e, Access.elim]
  exact checkResponse_eq (readBytes_received h s)

/-- A read that failed: three attempts, no sleep between them (R128). -/
theorem onReadAnswer_failed {a : ReadAnswer} (h : readBytesOf a = none) (s : State) :
    onReadAnswer a s =
      if s.micro.rattempt < 3 then .next (xferRead (setRattempt (s.micro.rattempt + 1) s))
      else commandReturn .transportError s := by
  unfold onReadAnswer afterFailure readAttempts readDelayMs
  rw [h]
  by_cases hr : s.micro.rattempt < 3 <;> simp [hr]

/-- Every read answer either returned exactly 90 bytes or failed. -/
theorem readAnswer_cases (a : ReadAnswer) :
    (∃ b, a = .returned b ∧ b.length = frameLen) ∨ readBytesOf a = none := by
  cases a with
  | timeout => exact .inr rfl
  | returned b =>
    by_cases h : b.length = frameLen
    · exact .inl ⟨b, rfl, h⟩
    · exact .inr (by simp [readBytesOf, h])

theorem writeSucceeds_iff (a : WriteAnswer) : writeSucceeds a = true ↔ a = .accepted 90 := by
  simp [writeSucceeds, frameLen]

/-! ## The host port -/

theorem hostOp_idle {s : State} (h : s.phase = .idle) (run : State → Out) : hostOp s run = run s := by
  simp [hostOp, h]

theorem hostOp_offline {s : State} (h : s.phase = .offline) (run : State → Out) :
    hostOp s run = .next (complete .offline s) := by
  simp [hostOp, h]

/-- Everything the port does with an operation (R190, R191). -/
theorem hostOp_cases (s : State) (run : State → Out) :
    (s.phase = .idle ∧ hostOp s run = run s) ∨
      (s.phase = .offline ∧ hostOp s run = .next (complete .offline s)) ∨
        ((s.phase = .init ∨ s.phase = .busy) ∧ hostOp s run = .next s) := by
  cases h : s.phase <;> simp [hostOp, h]

end Sys2Proof.Machine
end

