-- ==== Sys2Proof/Laws/PerInstr.lean ====
section
/-! SUPPORT. Statements about every instruction, one lemma for each constructor. -/

namespace Sys2Proof.Laws.WireFormat

open Sys2Proof.Machine

/-- What the wire form of an instruction always is: a frame carries the right checksum and 0 in its status and padding bytes
(R72, R101); a host word has 0 in its Z field (R78). -/
def Statement (i : Instr) : Prop :=
  match encode i with
  | .frame f => ckOk f = true ∧ fixedBytesZero f = true
  | .host w => hostZ w = 0#8

/-- ENCODE always gives the right checksum and zero padding (R102). -/
theorem encodeFrame_checked (cmd req : BitVec 16) (v : Values) :
    ckOk (encodeFrame cmd req v) = true ∧ fixedBytesZero (encodeFrame cmd req v) = true := by
  have zero : ∀ i, i < 4 ∨ 12 < i → i ≠ 88 → byteAt (encodeFrame cmd req v) i = 0#8 := by
    intro i h h88
    rw [byteAt_encodeFrame, if_neg h88, byteAt_encodeBody]
    repeat' split
    all_goals first | rfl | omega
  constructor
  · show (checksum (encodeFrame cmd req v) == byteAt (encodeFrame cmd req v) 88) = true
    rw [byteAt_encodeFrame, if_pos rfl, encodeFrame, checksum_withChecksum]
    exact beq_self_eq_true _
  · unfold fixedBytesZero decodeFields
    simp only [Bool.and_eq_true, beq_iff_eq, List.all_eq_true]
    refine ⟨⟨⟨zero 0 (by omega) (by omega), fun b hb => ?_⟩, fun b hb => ?_⟩, zero 89 (by omega) (by omega)⟩ <;>
      obtain ⟨i, h1, h2, rfl⟩ := mem_slice hb <;>
      exact zero i (by omega) (by omega)

/-- The Z field of a word built by the encoder (R83). -/
theorem hostZ_hostWord (opcode a b : Byte) : hostZ (hostWord opcode a b) = 0#8 := by
  apply BitVec.eq_of_getLsbD_eq
  intro i hi
  unfold hostZ hostWord
  rw [BitVec.getLsbD_extractLsb', BitVec.getLsbD_append]
  simp [hi]

theorem fwquery : Statement .fwquery := encodeFrame_checked _ _ _
theorem ressetLegacy (vx vy : Byte) : Statement (.ressetLegacy vx vy) := encodeFrame_checked _ _ _
theorem ressetExt (x y : BitVec 16) : Statement (.ressetExt x y) := encodeFrame_checked _ _ _
theorem ledset (s0 s1 on : Byte) : Statement (.ledset s0 s1 on) := encodeFrame_checked _ _ _
theorem freqset (fcode : Byte) : Statement (.freqset fcode) := encodeFrame_checked _ _ _
theorem acquire : Statement .acquire := hostZ_hostWord _ _ _
theorem release : Statement .release := hostZ_hostWord _ _ _
theorem setled (a b : Byte) : Statement (.setled a b) := hostZ_hostWord _ _ _
theorem setfreq (a : Byte) : Statement (.setfreq a) := hostZ_hostWord _ _ _
theorem setres (a b : Byte) : Statement (.setres a b) := hostZ_hostWord _ _ _
theorem commit (force : Bool) : Statement (.commit force) := hostZ_hostWord _ _ _

end Sys2Proof.Laws.WireFormat
end

