-- ==== Sys2Proof/Laws/Step.lean ====
section
/-! SUPPORT. Everything a step can do, said once: `step_cases`. -/

namespace Sys2Proof.Machine

/-- What one exchange left behind when it returned r: an unsuccessful one changed nothing, a successful one put the response
in RX and logged what was wrong with it (R129). -/
inductive Exchange (u : State) : ResultCode → State → Prop
  | failedWrite (h : u.pc.wait = .write) : Exchange u .transportError u
  | failedRead (h : u.pc.wait = .read) (hr : ¬u.micro.rattempt < 3) : Exchange u .transportError u
  | response (h : u.pc.wait = .read) (b : List Byte) (hb : b.length = frameLen) :
      Exchange u .ok (logStatus (frameOf b) (logChecksum (frameOf b) (received b u)))

/-- One move of the block from u, an answer or a host word already taken off its tape. -/
inductive Move (u : State) : State → Prop
  | waits : Move u u
  | offline (h : u.phase = .offline) : Move u (complete .offline u)
  | turnedAway (h : u.phase = .idle) (r : ResultCode) (hr : r = .busy ∨ r = .invalidArgument ∨ r = .illegalOp) :
      Move u (complete r u)
  | cleanCommit (h : u.phase = .idle) (hd : u.dirty = false) (hc : claimed u = true) : Move u (complete .ok u)
  | acquires (h : u.phase = .idle) (hc : u.claimCnt ≠ claimMax) :
      Move u (complete .ok (setClaims (u.claimCnt + 1#8) u))
  | releases (h : u.phase = .idle) (hc : u.claimCnt ≠ 0#8) :
      Move u (complete .ok (setClaims (u.claimCnt - 1#8) u))
  | setsLed (h : u.phase = .idle) (hc : claimed u = true) (i : Nat) (hi : i < 3) (c : BitVec 2)
      (hs : ledState u.conf i ≠ ledUnsupported) (hv : c = ledOff ∨ c = ledOn) :
      Move u (complete .ok (markDirty (setLedState i c u)))
  | setsFreq (h : u.phase = .idle) (hc : claimed u = true) (c : BitVec 8) (hv : c = 1#8 ∨ c = 2#8 ∨ c = 3#8) :
      Move u (complete .ok (markDirty (setFreqCode c u)))
  | setsX (h : u.phase = .idle) (hc : claimed u = true) (k : BitVec 7) (hk : k.toNat < tableSize u.conf.variant) :
      Move u (complete .ok (markDirty (setXmap k u)))
  | setsY (h : u.phase = .idle) (hc : claimed u = true) (k : BitVec 7) (hk : k.toNat < tableSize u.conf.variant) :
      Move u (complete .ok (markDirty (setYmap k u)))
  | commits (h : u.phase = .idle) (hc : claimed u = true) (force : Bool) (hf : force = true ∨ u.dirty = true) :
      Move u (sent (resEncode u.conf)
        (setStage .res (setForce force
          (setPc { routine := .commit, stage := .res, wait := .none } (setPhase .busy u)))))
  | starts (h : u.pc = SeqPc.entry) :
      Move u (sent fwqueryFrame (setPattempt 1 (setStage .probe (setClaims 1#8 u))))
  | sendsCur (hr : u.pc.routine ≠ .none) (hw : u.pc.wait = .none) (h : u.pc ≠ SeqPc.entry) (f : Frame) (i : Instr)
      (hi : decodeFrame u.micro.cur = .ok i) (hf : encode i = .frame f) : Move u (sent f u)
  | written (hr : u.pc.routine ≠ .none) (h : u.pc.wait = .write) : Move u (xferRead (setRattempt 1 u))
  | rereads (hr : u.pc.routine ≠ .none) (h : u.pc.wait = .read) (ha : u.micro.rattempt < 3) :
      Move u (xferRead (setRattempt (u.micro.rattempt + 1) u))
  | sleeps (hr : u.pc.routine ≠ .none) (h : u.pc.stage = .probe) (ha : u.micro.pattempt < 5) (r : ResultCode)
      (v : State) (hv : Exchange u r v) : Move u (sleepFor 250 v)
  | wakes (hr : u.pc.routine ≠ .none) (h : u.pc.wait = .sleep) :
      Move u (sent fwqueryFrame (setPattempt (u.micro.pattempt + 1) u))
  | probeEnds (hr : u.pc.routine ≠ .none) (h : u.pc.stage = .probe) (ha : ¬u.micro.pattempt < 5) (r : ResultCode)
      (v t : State) (hv : Exchange u r v) (ht : initFinish .deviceNotResponding v = .next t) : Move u t
  | probed (hr : u.pc.routine ≠ .none) (h : u.pc.stage = .probe) (hw : u.pc.wait = .read) (b : List Byte)
      (hb : b.length = frameLen) (h8 : byteAt (frameOf b) 8 ≠ 0#8) :
      Move u (sent (resEncode u.conf) (setStage .res (setForce true
        { logStatus (frameOf b) (logChecksum (frameOf b) (received b u)) with
          fwver := be16 (byteAt (frameOf b) 8) (byteAt (frameOf b) 9) })))
  | nextLed (hr : u.pc.routine ≠ .none) (i k : Nat)
      (h : (u.pc.stage = .res ∧ i = 0) ∨ (u.pc.stage = .led ∧ i = u.micro.led + 1))
      (hk : (ledList u.conf).find? (fun k => decide (i ≤ k)) = some k) (v : State) (hv : Exchange u .ok v) :
      Move u (sent (ledFrame u.params u.conf k) (setLedIndex k (setStage .led v)))
  | toFreq (hr : u.pc.routine ≠ .none) (i : Nat)
      (h : (u.pc.stage = .res ∧ i = 0) ∨ (u.pc.stage = .led ∧ i = u.micro.led + 1))
      (hk : (ledList u.conf).find? (fun k => decide (i ≤ k)) = none) (c : Byte) (hc : freqByte u.conf.freq = some c)
      (v : State) (hv : Exchange u .ok v) :
      Move u (sent (freqsetFrame c) (setStage .freq (setLedIndex 3 v)))
  | badFreq (hr : u.pc.routine ≠ .none) (i : Nat)
      (h : (u.pc.stage = .res ∧ i = 0) ∨ (u.pc.stage = .led ∧ i = u.micro.led + 1))
      (hk : (ledList u.conf).find? (fun k => decide (i ≤ k)) = none) (hc : freqByte u.conf.freq = none)
      (v t : State) (hv : Exchange u .ok v)
      (ht : commitReturn .invalidArgument (setStage .freq (setLedIndex 3 v)) = .next t) : Move u t
  | ends (hr : u.pc.routine ≠ .none)
      (r : ResultCode) (h : u.pc.stage = .freq ∨ ((u.pc.stage = .res ∨ u.pc.stage = .led) ∧ r = .transportError))
      (v t : State) (hv : Exchange u r v) (ht : commitReturn r v = .next t) : Move u t
  | nowhere (hr : u.pc.routine ≠ .none) (h : u.pc.stage = .absent) (r : ResultCode) (v : State)
      (hv : Exchange u r v) : Move u v

/-! ## What the pieces of a step give -/

@[simp] theorem logs_tx (f g : Frame) (b : List Byte) (u : State) :
    (logStatus f (logChecksum g (received b u))).tx = u.tx := by simp [received]

theorem Exchange.pc {u v : State} {r : ResultCode} (h : Exchange u r v) : v.pc = u.pc := by
  cases h <;> simp [received]
theorem Exchange.conf {u v : State} {r : ResultCode} (h : Exchange u r v) : v.conf = u.conf := by
  cases h <;> simp [received]
theorem Exchange.micro {u v : State} {r : ResultCode} (h : Exchange u r v) : v.micro = u.micro := by
  cases h <;> simp [received]
theorem Exchange.phase {u v : State} {r : ResultCode} (h : Exchange u r v) : v.phase = u.phase := by
  cases h <;> simp [received]
theorem Exchange.dirty {u v : State} {r : ResultCode} (h : Exchange u r v) : v.dirty = u.dirty := by
  cases h <;> simp [received]
theorem Exchange.claimCnt {u v : State} {r : ResultCode} (h : Exchange u r v) : v.claimCnt = u.claimCnt := by
  cases h <;> simp [received]
theorem Exchange.thumbPresent {u v : State} {r : ResultCode} (h : Exchange u r v) :
    v.thumbPresent = u.thumbPresent := by
  cases h <;> simp [received]
theorem Exchange.fwver {u v : State} {r : ResultCode} (h : Exchange u r v) : v.fwver = u.fwver := by
  cases h <;> simp [received]
theorem Exchange.result {u v : State} {r : ResultCode} (h : Exchange u r v) : v.result = u.result := by
  cases h <;> simp [received]
theorem Exchange.tx {u v : State} {r : ResultCode} (h : Exchange u r v) : v.tx = u.tx := by
  cases h <;> simp [received]
theorem Exchange.params {u v : State} {r : ResultCode} (h : Exchange u r v) : v.params = u.params := by
  cases h <;> simp [received]
theorem Exchange.env {u v : State} {r : ResultCode} (h : Exchange u r v) : v.env = u.env := by
  cases h <;> simp [received]
theorem Exchange.waiting {u v : State} {r : ResultCode} (h : Exchange u r v) :
    u.pc.wait = .write ∨ u.pc.wait = .read := by
  cases h with
  | failedWrite h => exact .inl h
  | failedRead h _ => exact .inr h
  | response h _ _ => exact .inr h
theorem Exchange.result_code {u v : State} {r : ResultCode} (h : Exchange u r v) :
    r = .ok ∨ r = .transportError := by
  cases h <;> simp

/-- A decoded frame is one of the five frame instructions (R74). -/
theorem decodeFrame_encode_frame {f : Frame} {i : Instr} (h : decodeFrame f = .ok i) : ∃ g, encode i = .frame g := by
  unfold decodeFrame at h
  simp only at h
  split at h
  · rename_i j unused hf
    split at h
    · have hij : j = i := by simpa using h
      subst hij
      repeat' split at hf
      all_goals first
        | (simp only [Except.ok.injEq, Prod.mk.injEq] at hf; obtain ⟨rfl, _⟩ := hf; exact ⟨_, rfl⟩)
        | simp at hf
    · simp at h
  · simp at h

/-- A frame instruction sends its encoding (R129). -/
theorem exec_of_encode_frame {i : Instr} {f : Frame} (h : encode i = .frame f) (s : State) :
    exec i s = .next (sent f s) := by
  cases i <;> simp only [encode, Wire.frame.injEq, reduceCtorEq] at h <;> subst h
  · exact execFwquery_eq s
  · exact execRessetLegacy_eq _ _ s
  · exact execRessetExt_eq _ _ s
  · exact execLedset_eq _ _ _ s
  · exact execFreqset_eq _ s

/-- A host operation answers a next state, by one move. -/
theorem move_of_host {i : Instr} {w : HostWord} (hi : encode i = .host w) (u : State) :
    ∃ t, exec i u = .next t ∧ Move u t := by
  have run : ∀ body : State → Out, (u.phase = .idle → ∃ t, body u = .next t ∧ Move u t) →
      ∃ t, hostOp u body = .next t ∧ Move u t := by
    intro body h
    rcases hostOp_cases u body with ⟨hp, e⟩ | ⟨hp, e⟩ | ⟨_, e⟩
    · rw [e]; exact h hp
    · exact ⟨_, e, .offline hp⟩
    · exact ⟨_, e, .waits⟩
  cases i <;> simp only [encode, reduceCtorEq] at hi
  case acquire =>
    unfold exec execAcquire
    refine run _ fun hp => ?_
    by_cases h : u.claimCnt = claimMax
    · exact ⟨_, if_pos h, .turnedAway hp _ (.inl rfl)⟩
    · exact ⟨_, if_neg h, .acquires hp h⟩
  case release =>
    unfold exec execRelease
    refine run _ fun hp => ?_
    by_cases h : u.claimCnt = 0#8
    · exact ⟨_, if_pos h, .turnedAway hp _ (.inr (.inl rfl))⟩
    · exact ⟨_, if_neg h, .releases hp h⟩
  case setled a b =>
    unfold exec execSetled
    refine run _ fun hp => ?_
    by_cases hc : claimed u = true
    · by_cases ha : ledIdOk a = true
      · by_cases hs : ledState u.conf a.toNat = ledUnsupported
        · exact ⟨_, by simp [hc, ha, hs], .turnedAway hp .invalidArgument (.inr (.inl rfl))⟩
        · by_cases hb : ledCodeOk b = true
          · have hv : b.setWidth 2 = ledOff ∨ b.setWidth 2 = ledOn := by
              simp only [ledCodeOk, Bool.or_eq_true, beq_iff_eq] at hb
              rcases hb with rfl | rfl
              · exact .inl rfl
              · exact .inr rfl
            exact ⟨_, by simp [hc, ha, hs, hb],
              .setsLed hp hc a.toNat (of_decide_eq_true ha) (b.setWidth 2) hs hv⟩
          · exact ⟨_, by simp [hc, ha, hs, hb], .turnedAway hp .invalidArgument (.inr (.inl rfl))⟩
      · exact ⟨_, by simp [hc, ha], .turnedAway hp .invalidArgument (.inr (.inl rfl))⟩
    · exact ⟨_, by simp [hc], .turnedAway hp .busy (.inl rfl)⟩
  case setfreq a =>
    unfold exec execSetfreq
    refine run _ fun hp => ?_
    by_cases hc : claimed u = true
    · by_cases ha : freqOk a = true
      · exact ⟨_, by simp [hc, ha], .setsFreq hp hc a (by simpa [freqOk, or_assoc] using ha)⟩
      · exact ⟨_, by simp [hc, ha], .turnedAway hp .invalidArgument (.inr (.inl rfl))⟩
    · exact ⟨_, by simp [hc], .turnedAway hp .busy (.inl rfl)⟩
  case setres a b =>
    unfold exec execSetres
    refine run _ fun hp => ?_
    by_cases hc : claimed u = true
    · by_cases ha : axisOk a = true
      · by_cases hb : indexOk u.conf.variant b = true
        · have hk : (b.setWidth 7).toNat < tableSize u.conf.variant := by
            have : b.toNat < tableSize u.conf.variant := by simpa [indexOk] using hb
            exact Nat.lt_of_le_of_lt (by rw [BitVec.toNat_setWidth]; exact Nat.mod_le _ _) this
          by_cases h0 : a = 0#8
          · subst h0; exact ⟨_, by simp [hc, ha, hb], .setsX hp hc _ hk⟩
          · exact ⟨_, by simp [hc, ha, hb, h0], .setsY hp hc _ hk⟩
        · exact ⟨_, by simp [hc, ha, hb], .turnedAway hp .invalidArgument (.inr (.inl rfl))⟩
      · exact ⟨_, by simp [hc, ha], .turnedAway hp .invalidArgument (.inr (.inl rfl))⟩
    · exact ⟨_, by simp [hc], .turnedAway hp .busy (.inl rfl)⟩
  case commit force =>
    unfold exec execCommit
    refine run _ fun hp => ?_
    by_cases hc : claimed u = true
    · by_cases hf : force = true ∨ u.dirty = true
      · have e : (!force && !u.dirty) = false := by rcases hf with h | h <;> simp [h]
        refine ⟨_, ?_, .commits hp hc force hf⟩
        simp only [hc, e, Bool.not_true, Bool.false_eq_true, if_false]
        rw [commitSeq_eq]
        rfl
      · have hf' : force = false ∧ u.dirty = false := by simpa using hf
        exact ⟨_, by simp [hc, hf'.1, hf'.2], .cleanCommit hp hf'.2 hc⟩
    · exact ⟨_, by simp [hc], .turnedAway hp .busy (.inl rfl)⟩

theorem decodeHost_encode_host {w : HostWord} {i : Instr} (h : decodeHost w = .ok i) : ∃ w', encode i = .host w' := by
  unfold decodeHost at h
  split at h
  · rename_i r hr
    have hm := List.mem_of_find?_eq_some hr
    have hb : r.build w = i := by simpa using h
    subst hb
    simp only [hostRows, List.mem_cons, List.not_mem_nil, or_false] at hm
    rcases hm with rfl | rfl | rfl | rfl | rfl | rfl <;> exact ⟨_, rfl⟩
  · simp at h

/-- Taking a host word is one move (R190). -/
theorem move_of_word (w : HostWord) (u : State) : ∃ t, takeWord w u = .next t ∧ Move u t := by
  unfold takeWord
  cases hd : decodeHost w with
  | ok i =>
    obtain ⟨w', hw⟩ := decodeHost_encode_host hd
    exact move_of_host hw u
  | error e =>
    rcases hostOp_cases u (fun s => .next (complete .illegalOp s)) with ⟨hp, h⟩ | ⟨hp, h⟩ | ⟨_, h⟩
    · exact ⟨_, h, .turnedAway hp _ (.inr (.inr rfl))⟩
    · exact ⟨_, h, .offline hp⟩
    · exact ⟨_, h, .waits⟩

theorem commitReturn_next {r : ResultCode} {s : State} : ∃ t, commitReturn r s = .next t := by
  unfold commitReturn
  split <;> exact ⟨_, rfl⟩

/-- From step 2 on, after a successful exchange. -/
theorem move_of_ledLoop {u v : State} (hr : u.pc.routine ≠ .none) {i : Nat}
    (h : (u.pc.stage = .res ∧ i = 0) ∨ (u.pc.stage = .led ∧ i = u.micro.led + 1)) (hv : Exchange u .ok v)
    (w : State) (hw : w = v ∨ w = setStage .led v) (hs : w.pc.stage = .led) :
    ∃ t, ledLoop i w = .next t ∧ Move u t := by
  have hc : w.conf = u.conf := by rcases hw with rfl | rfl <;> simp [hv.conf]
  have hp : w.params = u.params := by rcases hw with rfl | rfl <;> simp [hv.params]
  have hst : setStage .led v = w := by
    rcases hw with rfl | rfl
    · cases w; rename_i pc _ _ _ _ _ _; cases pc; simp_all [setStage]
    · rfl
  rw [ledLoop_eq, hc, hp]
  cases hk : (ledList u.conf).find? (fun k => decide (i ≤ k)) with
  | some k => exact ⟨_, rfl, by rw [← hst]; exact .nextLed hr i k h hk v hv⟩
  | none =>
    have hfr : ∀ x : State, setStage .freq (setLedIndex 3 (setStage .led x)) = setStage .freq (setLedIndex 3 x) :=
      fun x => rfl
    have hx : setStage .freq (setLedIndex 3 w) = setStage .freq (setLedIndex 3 v) := by rw [← hst, hfr]
    simp only [enterFreq_eq, setLedIndex_conf, hc, ledCount]
    cases hfq : freqByte u.conf.freq with
    | some c => exact ⟨_, rfl, by rw [hx]; exact .toFreq hr i h hk c hfq v hv⟩
    | none =>
      obtain ⟨t, ht⟩ := commitReturn_next (r := .invalidArgument) (s := setStage .freq (setLedIndex 3 w))
      exact ⟨t, ht, .badFreq hr i h hk hfq v t hv (by rw [← hx]; exact ht)⟩

theorem setStage_of_stage {s : State} {st : Stage} (h : s.pc.stage = st) : setStage st s = s := by
  subst h; rfl

/-- What follows an exchange that returned r is one move. -/
theorem move_of_return {u v : State} (hr : u.pc.routine ≠ .none) {r : ResultCode} (hv : Exchange u r v) :
    ∃ t, commandReturn r v = .next t ∧ Move u t := by
  have hst : v.pc.stage = u.pc.stage := by rw [hv.pc]
  unfold commandReturn
  rw [hst]
  cases hs : u.pc.stage with
  | probe =>
    have fails : ∀ (r : ResultCode), Exchange u r v → ∃ t, probeFailed v = .next t ∧ Move u t := by
      intro r hv
      rw [probeFailed_eq, hv.micro]
      by_cases ha : u.micro.pattempt < 5
      · exact ⟨_, if_pos ha, .sleeps hr hs ha r v hv⟩
      · exact ⟨_, (if_neg ha).trans rfl, .probeEnds hr hs ha r v _ hv rfl⟩
    cases hv with
    | failedWrite h => exact fails _ (.failedWrite h)
    | failedRead h h' => exact fails _ (.failedRead h h')
    | response h b hb =>
      simp only [if_true]
      have hrx : Memory.readBytes (logStatus (frameOf b) (logChecksum (frameOf b) (received b u))).rx 0 frameLen
          = some b := by
        simp only [logStatus_rx, logChecksum_rx]
        exact readBytes_received hb u
      rw [probeAnswered_eq hrx]
      by_cases h8 : byteAt (frameOf b) 8 = 0#8
      · rw [if_pos h8]; exact fails _ (.response h b hb)
      · rw [if_neg h8]
        refine ⟨_, rfl, ?_⟩
        have := Move.probed hr hs h b hb h8
        simpa [received] using this
  | res =>
    cases hv with
    | failedWrite h =>
      obtain ⟨t, ht⟩ := commitReturn_next (r := .transportError) (s := u)
      exact ⟨t, by simpa using ht, .ends hr _ (.inr ⟨.inl hs, rfl⟩) u t (.failedWrite h) ht⟩
    | failedRead h h' =>
      obtain ⟨t, ht⟩ := commitReturn_next (r := .transportError) (s := u)
      exact ⟨t, by simpa using ht, .ends hr _ (.inr ⟨.inl hs, rfl⟩) u t (.failedRead h h') ht⟩
    | response h b hb =>
      simpa using move_of_ledLoop hr (.inl ⟨hs, rfl⟩) (.response h b hb) _ (.inr rfl) rfl
  | led =>
    cases hv with
    | failedWrite h =>
      obtain ⟨t, ht⟩ := commitReturn_next (r := .transportError) (s := u)
      exact ⟨t, by simpa using ht, .ends hr _ (.inr ⟨.inr hs, rfl⟩) u t (.failedWrite h) ht⟩
    | failedRead h h' =>
      obtain ⟨t, ht⟩ := commitReturn_next (r := .transportError) (s := u)
      exact ⟨t, by simpa using ht, .ends hr _ (.inr ⟨.inr hs, rfl⟩) u t (.failedRead h h') ht⟩
    | response h b hb =>
      have hv : Exchange u .ok _ := .response h b hb
      rw [if_pos rfl, hv.micro]
      exact move_of_ledLoop hr (.inr ⟨hs, rfl⟩) hv _ (.inl rfl) (by rw [hv.pc]; exact hs)
  | freq =>
    obtain ⟨t, ht⟩ := commitReturn_next (r := r) (s := v)
    exact ⟨t, ht, .ends hr _ (.inl hs) v t hv ht⟩
  | absent => exact ⟨_, rfl, .nowhere hr hs r v hv⟩

theorem move_of_writeAnswer {u : State} (hr : u.pc.routine ≠ .none) (hw : u.pc.wait = .write) (a : WriteAnswer) :
    ∃ t, onWriteAnswer a u = .next t ∧ Move u t := by
  unfold onWriteAnswer
  by_cases h : writeSucceeds a = true
  · exact ⟨_, if_pos h, .written hr hw⟩
  · rw [if_neg h]; exact move_of_return hr (.failedWrite hw)

theorem move_of_readAnswer {u : State} (hr : u.pc.routine ≠ .none) (hw : u.pc.wait = .read) (a : ReadAnswer) :
    ∃ t, onReadAnswer a u = .next t ∧ Move u t := by
  rcases readAnswer_cases a with ⟨b, rfl, hb⟩ | h
  · rw [onReadAnswer_returned hb]; exact move_of_return hr (.response hw b hb)
  · rw [onReadAnswer_failed h]
    by_cases hn : u.micro.rattempt < 3
    · exact ⟨_, if_pos hn, .rereads hr hw hn⟩
    · rw [if_neg hn]; exact move_of_return hr (.failedRead hw hn)

/-- The state with other tapes. -/
def withEnv (s : State) (e : Env) : State := { s with env := e }

/-- Everything a move of the sequencer can do: one move of the block, or, only at a position with no wait other than the
reset position, the refusal of a `cur` that holds no frame of the block. -/
theorem sequencerMove_cases (s : State) :
    (∃ e t, e.host = s.env.host ∧ sequencerMove s = .next t ∧ Move (withEnv s e) t) ∨
      (s.pc.routine ≠ .none ∧ s.pc.wait = .none ∧ s.pc ≠ SeqPc.entry ∧
        ∃ why, sequencerMove s = .refused (.notAFrame why)) := by
  have same : withEnv s s.env = s := rfl
  have main : s.pc.routine ≠ .none → sequencerMove s =
      (match s.pc.wait with
        | .none => runPosition s
        | .write =>
          match s.env.writes with
          | [] => .next s
          | a :: rest => onWriteAnswer a { s with env := { s.env with writes := rest } }
        | .read =>
          match s.env.reads with
          | [] => .next s
          | a :: rest => onReadAnswer a { s with env := { s.env with reads := rest } }
        | .sleep =>
          match s.env.ticks with
          | 0 => .next s
          | n + 1 => onSleepDone { s with env := { s.env with ticks := n } }) := by
    intro hr
    unfold sequencerMove
    cases h : s.pc.routine with
    | none => exact absurd h hr
    | init => rfl
    | commit => rfl
  by_cases hr : s.pc.routine = .none
  · exact .inl ⟨s.env, s, rfl, by unfold sequencerMove; rw [hr], by rw [same]; exact .waits⟩
  · rw [main hr]
    cases hw : s.pc.wait with
    | none =>
      simp only
      unfold runPosition
      by_cases he : s.pc = SeqPc.entry
      · rw [if_pos he, initStart_eq]
        exact .inl ⟨s.env, _, rfl, rfl, by rw [same]; exact .starts he⟩
      · rw [if_neg he]
        cases hd : decodeFrame s.micro.cur with
        | error e => exact .inr ⟨hr, trivial, he, e, rfl⟩
        | ok i =>
          obtain ⟨f, hf⟩ := decodeFrame_encode_frame hd
          exact .inl ⟨s.env, _, rfl, exec_of_encode_frame hf s, by rw [same]; exact .sendsCur hr hw he f i hd hf⟩
    | write =>
      left
      cases hq : s.env.writes with
      | nil => exact ⟨s.env, s, rfl, rfl, by rw [same]; exact .waits⟩
      | cons a rest =>
        obtain ⟨t, ht, hm⟩ := move_of_writeAnswer (u := withEnv s { s.env with writes := rest }) hr hw a
        exact ⟨{ s.env with writes := rest }, t, rfl, ht, hm⟩
    | read =>
      left
      cases hq : s.env.reads with
      | nil => exact ⟨s.env, s, rfl, rfl, by rw [same]; exact .waits⟩
      | cons a rest =>
        obtain ⟨t, ht, hm⟩ := move_of_readAnswer (u := withEnv s { s.env with reads := rest }) hr hw a
        exact ⟨{ s.env with reads := rest }, t, rfl, ht, hm⟩
    | sleep =>
      left
      cases hq : s.env.ticks with
      | zero => exact ⟨s.env, s, rfl, rfl, by rw [same]; exact .waits⟩
      | succ n =>
        refine ⟨{ s.env with ticks := n }, _, rfl, onSleepDone_eq _, ?_⟩
        exact Move.wakes (u := withEnv s { s.env with ticks := n }) hr hw

/-- Everything a step can do: RESET (R260), one move of the block, or the refusal of an undecodable `cur`. No step faults. -/
theorem step_cases (s : State) :
    (∃ gen thumb rest, s.env.host = .reset gen thumb :: rest ∧
        step s = .next (applyReset gen thumb (dropHostMove s))) ∨
      (∃ e t, step s = .next t ∧ Move (withEnv s e) t) ∨
        (s.pc.routine ≠ .none ∧ s.pc.wait = .none ∧ s.pc ≠ SeqPc.entry ∧
          ∃ why, step s = .refused (.notAFrame why)) := by
  unfold step machineStep
  have seq : ∀ u : State, u.pc = s.pc → (∃ e, u = withEnv s e) →
      (∃ e t, sequencerMove u = .next t ∧ Move (withEnv s e) t) ∨
        (s.pc.routine ≠ .none ∧ s.pc.wait = .none ∧ s.pc ≠ SeqPc.entry ∧
          ∃ why, sequencerMove u = .refused (.notAFrame why)) := by
    rintro u hu ⟨e0, rfl⟩
    rcases sequencerMove_cases (withEnv s e0) with ⟨e, t, _, ht, hm⟩ | h
    · exact .inl ⟨e, t, ht, hm⟩
    · exact .inr h
  cases hh : s.env.host with
  | nil => exact .inr (seq s rfl ⟨s.env, rfl⟩)
  | cons m rest =>
    cases m with
    | reset gen thumb => exact .inl ⟨gen, thumb, rest, rfl, rfl⟩
    | pause => exact .inr (seq (dropHostMove s) rfl ⟨_, rfl⟩)
    | word w =>
      simp only
      by_cases hp : portReady s = true
      · rw [if_pos hp]
        obtain ⟨t, ht, hm⟩ := move_of_word w (dropHostMove s)
        exact .inr (.inl ⟨_, t, ht, hm⟩)
      · rw [if_neg hp]
        exact .inr (seq s rfl ⟨s.env, rfl⟩)

/-! ## A step while the port is not ready -/

/-- With no RESET and the port not ready, the step is the sequencer's (R190). -/
theorem step_quiet {s : State} (hn : Safety.noReset s = true) (hp : portReady s = false) :
    ∃ h, step s = sequencerMove (withEnv s { s.env with host := h }) := by
  unfold step machineStep
  cases hh : s.env.host with
  | nil => exact ⟨s.env.host, rfl⟩
  | cons m rest =>
    cases m with
    | reset gen thumb => simp [Safety.noReset, hh] at hn
    | pause => exact ⟨s.env.host.tail, rfl⟩
    | word w => exact ⟨s.env.host, by simp only [hp, Bool.false_eq_true, if_false]; rfl⟩

theorem sequencerMove_write {s : State} {a : WriteAnswer} {rest : List WriteAnswer} (hr : s.pc.routine ≠ .none)
    (hw : s.pc.wait = .write) (hq : s.env.writes = a :: rest) :
    sequencerMove s = onWriteAnswer a (withEnv s { s.env with writes := rest }) := by
  unfold sequencerMove
  rw [hw, hq]
  cases h : s.pc.routine <;> simp_all [withEnv]

theorem sequencerMove_read {s : State} {a : ReadAnswer} {rest : List ReadAnswer} (hr : s.pc.routine ≠ .none)
    (hw : s.pc.wait = .read) (hq : s.env.reads = a :: rest) :
    sequencerMove s = onReadAnswer a (withEnv s { s.env with reads := rest }) := by
  unfold sequencerMove
  rw [hw, hq]
  cases h : s.pc.routine <;> simp_all [withEnv]

theorem sequencerMove_sleep {s : State} {n : Nat} (hr : s.pc.routine ≠ .none)
    (hw : s.pc.wait = .sleep) (hq : s.env.ticks = n + 1) :
    sequencerMove s = onSleepDone (withEnv s { s.env with ticks := n }) := by
  unfold sequencerMove
  rw [hw, hq]
  cases h : s.pc.routine <;> simp_all [withEnv]

end Sys2Proof.Machine
end

