-- ==== Sys2Proof/Tests/Slice0.lean ====
section
/-! SUPPORT. Named tests, each expected value taken from the section of spec/ its comment names (95_test_vectors.md unless said
otherwise), and for every statement with hypotheses a state that meets them all. -/

namespace Sys2Proof.Tests

open Sys2Proof.Machine Sys2Proof.Safety

/-! ## Helpers -/

/-- The invented parameter values of 95_test_vectors.md section 0. -/
def prm : Params :=
  { sel0 := ⟨0xA0#8, 0x01#8⟩, sel1 := ⟨0xA0#8, 0x02#8⟩, sel2 := ⟨0xA0#8, 0x03#8⟩
    writeReq := 9#8, readReq := 1#8, timeoutMs := 1000 }

/-- A frame given by its bytes 0..12 and byte 88. -/
def raw (front : List Byte) (ck : Byte) : Frame := frameOf (front ++ List.replicate 75 0#8 ++ [ck, 0#8])

/-- RESP(s, v0, v1, ck) as bytes. -/
def resp (s v0 v1 ck : Byte) : List Byte :=
  [s, 0#8, 0#8, 0#8, 0#8, 0#8, 0#8, 0#8, v0, v1, 0#8, 0#8, 0#8] ++ List.replicate 75 0#8 ++ [ck, 0#8]

/-- RESP(0, 1, 5), correct. -/
def good : List Byte := resp 0#8 0x01#8 0x05#8 0x04#8

/-- The same response with command id 0x5A5A, which changes no checksum. -/
def respOtherId (s v0 v1 ck : Byte) : List Byte :=
  [s, 0#8, 0#8, 0#8, 0x5A#8, 0x5A#8, 0#8, 0#8, v0, v1, 0#8, 0#8, 0#8] ++ List.replicate 75 0#8 ++ [ck, 0#8]

/-- The state right after reset: Extended, no thumb-grid LED, silent environment. -/
def fresh : State := State.afterReset .extended false prm Env.silent

/-- The start state of section 2.6: IDLE, Extended, LED [2,2,0], FREQ 3, cursors 9. -/
def idle (claims : BitVec 8) (dirty : Bool) : State :=
  { fresh with phase := .idle, pc := SeqPc.outside, claimCnt := claims, dirty := dirty, fwver := 0x0105#16 }

/-- The same block with the Legacy table. -/
def legacyIdle (claims : BitVec 8) : State :=
  { idle claims false with conf := Conf.afterReset .legacy true, thumbPresent := true }

/-- A block in OFFLINE. -/
def dead : State := { fresh with phase := .offline, pc := SeqPc.outside, result := 2#8 }

/-- A host that presents one word. -/
def presenting (w : HostWord) (s : State) : State := { s with env := { s.env with host := [.word w] } }

/-- A COMMIT (claimed, Dirty) at a stage and a wait, with answers to come. -/
def committing (st : Stage) (w : Wait) (ws : List WriteAnswer) (rs : List ReadAnswer) : State :=
  { idle 1#8 true with
    phase := .busy
    pc := { routine := .commit, stage := st, wait := w }
    micro := { Micro.discarded with led := if st = .freq then 3 else 0 }
    env := { host := [], writes := ws, reads := rs, ticks := 0 } }

/-- An initialization in probe attempt p, or past the probe, with answers to come. -/
def probing (p : Nat) (st : Stage) (w : Wait) (ws : List WriteAnswer) (rs : List ReadAnswer) (ticks : Nat) : State :=
  { fresh with
    claimCnt := 1#8
    fwver := if st = .probe then 0#16 else 0x0105#16
    pc := { routine := .init, stage := st, wait := w }
    micro := { Micro.discarded with pattempt := p, led := if st = .freq then 3 else 0 }
    env := { host := [], writes := ws, reads := rs, ticks := ticks } }

/-- The third attempt of a read. -/
def thirdRead (s : State) : State := { s with micro := { s.micro with rattempt := 3 } }

/-- The state a step or an instruction answers. -/
def next? : Out → Option State
  | .next t => some t
  | _ => none

/-- A step that answers a state with a decidable property. -/
theorem answers {o : Out} {P : State → Prop} [DecidablePred P]
    (h : (match o with | .next t => decide (P t) | _ => false) = true) : ∃ t, o = .next t ∧ P t := by
  cases o with
  | next t => exact ⟨t, rfl, of_decide_eq_true h⟩
  | fault r => exact absurd h (by simp)
  | refused r => exact absurd h (by simp)

/-- One byte of TX after an instruction. -/
def txAfter (i : Instr) (a : Nat) : Option (Option Byte) := (next? (exec i fresh)).map fun t => peek t .tx a

/-- RESULT, and a register, after an instruction. -/
def after (i : Instr) (addr : Byte) (s : State) : Option (Byte × Byte) :=
  (next? (exec i s)).map fun t => (regRead 0x02#8 t, regRead addr t)

/-! ## Decoding, from words written out by hand -/

/-- R79, section 2.6. -/
theorem test_decode_acquire : decodeHost 0x01000000#32 = .ok .acquire := by decide
theorem test_decode_release : decodeHost 0x02000000#32 = .ok .release := by decide
theorem test_decode_setled : decodeHost 0x10020100#32 = .ok (.setled 2#8 1#8) := by decide
theorem test_decode_setfreq : decodeHost 0x11030000#32 = .ok (.setfreq 3#8) := by decide
theorem test_decode_setres : decodeHost 0x12015100#32 = .ok (.setres 1#8 81#8) := by decide
theorem test_decode_commit : decodeHost 0x20000000#32 = .ok (.commit false) := by decide
theorem test_decode_commit_force : decodeHost 0x20010000#32 = .ok (.commit true) := by decide

/-- X1 to X7 (R81). -/
theorem test_decode_illegal :
    ([0x00000000#32, 0xFFFFFFFF#32, 0x01000001#32, 0x01010000#32, 0x11010001#32, 0x11010100#32, 0x20020000#32] :
      List HostWord).all (fun w => decodeHost w == .error .illegalHostWord) = true := by decide

/-- X9 (R80): an operand out of its domain is a legal encoding. -/
theorem test_decode_out_of_domain : decodeHost 0x10FFFF00#32 = .ok (.setled 0xFF#8 0xFF#8) := by decide

/-- K1 (R71, R74). -/
theorem test_decode_fwquery :
    decodeFrame (raw [0#8, 0#8, 0#8, 0#8, 0x00#8, 0x02#8, 0x00#8, 0x81#8, 0#8, 0#8, 0#8, 0#8, 0#8] 0x83#8) = .ok .fwquery := by
  decide +kernel

/-- K7. -/
theorem test_decode_resset_legacy :
    decodeFrame (raw [0#8, 0#8, 0#8, 0#8, 0x00#8, 0x03#8, 0x04#8, 0x01#8, 0x1C#8, 0x3C#8, 0#8, 0#8, 0#8] 0x26#8) =
      .ok (.ressetLegacy 0x1C#8 0x3C#8) := by decide +kernel

/-- K11: X 800, Y 1600. -/
theorem test_decode_resset_ext :
    decodeFrame (raw [0#8, 0#8, 0#8, 0#8, 0x00#8, 0x07#8, 0x04#8, 0x05#8, 0#8, 0x03#8, 0x20#8, 0x06#8, 0x40#8] 0x63#8) =
      .ok (.ressetExt 800#16 1600#16) := by decide +kernel

/-- K18. -/
theorem test_decode_ledset :
    decodeFrame (raw [0#8, 0#8, 0#8, 0#8, 0x00#8, 0x03#8, 0x03#8, 0x00#8, 0xA0#8, 0x02#8, 0x01#8, 0#8, 0#8] 0xA3#8) =
      .ok (.ledset 0xA0#8 0x02#8 0x01#8) := by decide +kernel

/-- K4. -/
theorem test_decode_freqset :
    decodeFrame (raw [0#8, 0#8, 0#8, 0#8, 0x00#8, 0x01#8, 0x00#8, 0x05#8, 0x08#8, 0#8, 0#8, 0#8, 0#8] 0x0C#8) =
      .ok (.freqset 0x08#8) := by decide +kernel

/-- Ids of no kind (R77), and a byte the block never sends (R75). -/
theorem test_decode_frame_rejects :
    decodeFrame (raw [0#8, 0#8, 0#8, 0#8, 0x00#8, 0x07#8, 0x04#8, 0x01#8, 0#8, 0#8, 0#8, 0#8, 0#8] 0x02#8) =
        .error .unknownIds ∧
      decodeFrame (raw [0#8, 0#8, 0#8, 0#8, 0x00#8, 0x01#8, 0x00#8, 0x05#8, 0x08#8, 1#8, 0#8, 0#8, 0#8] 0x0D#8) =
        .error .reservedByte := by decide +kernel

/-- The rows of opcode_table.json, by their match words with zero operands. -/
theorem test_table_words :
    ([0x00020081, 0x00030401, 0x00070405, 0x00030300, 0x00010005, 0x01000000, 0x02000000, 0x10000000, 0x11000000,
        0x12000000, 0x20000000].map (decodeTableWord 32)) =
      [some .fwquery, some (.ressetLegacy 0#8 0#8), some (.ressetExt 0#16 0#16), some (.ledset 0#8 0#8 0#8),
        some (.freqset 0#8), some .acquire, some .release, some (.setled 0#8 0#8), some (.setfreq 0#8),
        some (.setres 0#8 0#8), some (.commit false)] := by decide +kernel

/-- A table word placed after reset runs as the first instruction: FWQUERY and FREQSET issue one write, ACQUIRE completes. -/
theorem test_fetch_word_runs :
    ((next? (step (State.reset.withFetchWord 32 0x00020081))).map fun t => t.trace.length) = some 1 ∧
      ((next? (step (State.reset.withFetchWord 32 0x00010005))).map fun t => peek t .tx 88) = some (some 0x04#8) ∧
      ((next? (step (State.reset.withFetchWord 32 0x01000000))).map fun t => t.claimCnt) = some 1#8 := by
  decide +kernel

/-! ## WellFormed: an ill-formed term for each check -/

theorem test_wf_legacy_byte : Instr.wf (.ressetLegacy 1#8 0#8) = false ∧ Instr.wf (.ressetLegacy 0#8 0x26#8) = false := by decide
theorem test_wf_resolution_step : Instr.wf (.ressetExt 850#16 100#16) = false ∧ Instr.wf (.ressetExt 100#16 101#16) = false := by decide
theorem test_wf_resolution_range : Instr.wf (.ressetExt 0#16 100#16) = false ∧ Instr.wf (.ressetExt 100#16 12900#16) = false := by decide
theorem test_wf_on_byte : Instr.wf (.ledset 0xA0#8 1#8 2#8) = false := by decide
theorem test_wf_freq_byte : Instr.wf (.freqset 3#8) = false := by decide
theorem test_wf_good :
    ([.fwquery, .ressetLegacy 0xDC#8 0#8, .ressetExt 100#16 8200#16, .ledset 0xA0#8 1#8 1#8, .freqset 8#8,
      .setled 0xFF#8 0xFF#8] : List Instr).all Instr.wf = true := by decide

/-! ## The codec -/

/-- K22 to K25 (R100). -/
theorem test_checksum_range :
    checksum zeroFrame = 0#8 ∧ checksum (setByte (setByte (setByte zeroFrame 0 0xFF#8) 1 0xFF#8) 89 0xFF#8) = 0#8 ∧
      checksum (setByte (setByte zeroFrame 2 0x5A#8) 87 0x5A#8) = 0#8 ∧ checksum (setByte zeroFrame 87 1#8) = 1#8 := by
  decide +kernel

/-- K27, K28 (R104), K31 (R105). -/
theorem test_verify_and_status :
    ckOk (frameOf (resp 0#8 0x01#8 0x05#8 0x04#8)) = true ∧ ckOk (setByte fwqueryFrame 8 0x01#8) = false ∧
      ([0x00#8, 0x01#8, 0x02#8, 0x03#8, 0x80#8, 0xFF#8].map statusNormal) = [true, true, true, false, false, false] := by
  decide +kernel

/-- N1, N3, N7 (R143). -/
theorem test_legacy_bytes : ([0, 7, 55].map fun k => legacyByte (res k)) = [0x00#8, 0x1C#8, 0xDC#8] := by decide

/-- N9, and K14's bytes (R144). -/
theorem test_extended_bytes :
    (hi8 (extWord (res 81)), lo8 (extWord (res 81)), lo8 (extWord (res 0))) = (0x20#8, 0x08#8, 0x64#8) := by decide

/-! ## One step of each instruction -/

/-- K1: the checksum byte of TX; R120: the wait. -/
theorem test_fwquery : txAfter .fwquery 88 = some (some 0x83#8) := by decide +kernel
/-- K8, and its Y byte. -/
theorem test_resset_legacy : txAfter (.ressetLegacy 0x00#8 0xDC#8) 88 = some (some 0xDA#8) := by decide +kernel
theorem test_resset_legacy_y : txAfter (.ressetLegacy 0x00#8 0xDC#8) 9 = some (some 0xDC#8) := by decide +kernel
/-- K14: 100/8200. -/
theorem test_resset_ext : txAfter (.ressetExt 100#16 8200#16) 88 = some (some 0x4A#8) := by decide +kernel
theorem test_resset_ext_y : txAfter (.ressetExt 100#16 8200#16) 11 = some (some 0x20#8) := by decide +kernel
/-- K20. -/
theorem test_ledset : txAfter (.ledset 0xA0#8 0x03#8 0x01#8) 88 = some (some 0xA2#8) := by decide +kernel
/-- K3. -/
theorem test_freqset : txAfter (.freqset 0x02#8) 88 = some (some 0x06#8) := by decide +kernel
/-- O1, O2. -/
theorem test_acquire : after .acquire 0x01#8 (idle 1#8 false) = some (0#8, 2#8) := by decide
theorem test_acquire_full : after .acquire 0x01#8 (idle 255#8 false) = some (3#8, 255#8) := by decide
/-- O5 (STATUS bit 2 stays), O4. -/
theorem test_release : after .release 0x00#8 (idle 1#8 true) = some (0#8, 0x15#8) := by decide
theorem test_release_unheld : after .release 0x01#8 (idle 0#8 false) = some (4#8, 0#8) := by decide
/-- O6, O8. -/
theorem test_setled : after (.setled 0#8 1#8) 0x04#8 (idle 1#8 false) = some (0#8, 1#8) := by decide
theorem test_setled_unsupported : after (.setled 2#8 2#8) 0x06#8 (idle 1#8 false) = some (4#8, 0#8) := by decide
/-- O13, O15. -/
theorem test_setfreq : after (.setfreq 1#8) 0x03#8 (idle 1#8 false) = some (0#8, 1#8) := by decide
theorem test_setfreq_unknown : after (.setfreq 0#8) 0x03#8 (idle 1#8 false) = some (4#8, 3#8) := by decide
/-- O18, O22. -/
theorem test_setres : after (.setres 1#8 81#8) 0x08#8 (idle 1#8 false) = some (0#8, 81#8) := by decide
theorem test_setres_legacy_limit : after (.setres 0#8 56#8) 0x07#8 (legacyIdle 1#8) = some (4#8, 9#8) := by decide
/-- O24; and the first frame of O25 (K10) with STATUS 0x1A, BUSY (R37). -/
theorem test_commit_unclaimed : after (.commit false) 0x00#8 (idle 0#8 false) = some (3#8, 0x11#8) := by decide
theorem test_commit_force :
    ((next? (exec (.commit true) (idle 1#8 false))).map fun t => (regRead 0x00#8 t, peek t .tx 88, peek t .tx 12)) =
      some (0x1A#8, some 0x06#8, some 0xE8#8) := by decide +kernel

/-! ## Other single steps -/

/-- S10, S11 at the last frame of a COMMIT: LogCk first, then LogAnom, and the call succeeds. -/
theorem test_bad_response_only_logged :
    ((next? (step (committing .freq .read [] [.returned (resp 0xFF#8 0#8 0#8 0x01#8)]))).map fun t => (t.trace, t.result)) =
      some ([.logCk 0x00#8 0x01#8, .logAnom 0xFF#8, .done .ok], 0#8) := by decide +kernel

/-- S2: a short write is a TransportError; DIRTY stays. -/
theorem test_short_write :
    ((next? (step (committing .led .write [.accepted 89] []))).map fun t => (t.result, t.dirty, t.phase)) =
      some (1#8, true, .idle) := by decide +kernel

/-- R171: a reserved FREQ ends initialization in OFFLINE, the claim released, DIRTY still 1 (`STATUS` 0x17). -/
theorem test_reserved_frequency_ends_initialization :
    let s := probing 1 .led .read [] [.returned good] 0
    let s := { s with micro := { s.micro with led := 1 }, conf := { s.conf with freq := 4#8 } }
    ((next? (step s)).map fun t => (regRead 0x00#8 t, t.claimCnt, t.trace)) =
      some (0x17#8, 0#8, [.done .invalidArgument]) := by decide +kernel

/-- R261: the answer to the read outstanding at reset is gone after it, the next one is not. -/
theorem test_reset_drops_the_outstanding_answer :
    let s := committing .res .read [.accepted 90] [.returned good, .timeout]
    let s := { s with env := { s.env with host := [.reset .extended false] } }
    ((next? (step s)).map fun t => (t.env.writes, t.env.reads)) = some ([.accepted 90], [.timeout]) := by decide

/-- W9: RESP(0, 0x01, 0x05) in the probe gives FWVER 0x0105. -/
theorem test_probe_version :
    ((next? (step (probing 1 .probe .read [] [.returned (resp 0#8 0x01#8 0x05#8 0x04#8)] 0))).map fun t => t.fwver) =
      some 0x0105#16 := by decide +kernel

/-- RG1, RG2, RG3. -/
theorem test_registers_after_reset :
    (([0x00#8, 0x03#8, 0x04#8, 0x06#8, 0x07#8, 0x08#8, 0x09#8, 0x0B#8, 0x0C#8, 0xFF#8] : List Byte).map
        fun a => regRead a fresh) = [0x14#8, 3#8, 2#8, 0#8, 9#8, 9#8, 0#8, 3#8, 0#8, 0#8] := by decide

/-! ## The host-program syntax (R83, R84) -/

theorem test_assemble_setres : (assembleLine "SETRES Y, 0x0F".toList).map hostWordsOf = some [0x12010F00#32] := by
  decide +kernel
theorem test_assemble_commit_force : (assembleLine "COMMIT FORCE".toList).map hostWordsOf = some [0x20010000#32] := by
  decide +kernel
theorem test_assemble_setresxy :
    (assembleLine "SETRESXY 7".toList).map hostWordsOf = some [0x12000700#32, 0x12010700#32] := by decide +kernel
theorem test_assemble_program :
    assembleProgram ["ACQUIRE".toList, "LEDON 0".toList, "SETFREQ F125".toList, "RELEASE".toList] =
      some [0x01000000#32, 0x10000200#32, 0x11010000#32, 0x02000000#32] := by decide +kernel
theorem test_assemble_rejects : assembleLine "SETRES Z, 1".toList = none := by decide +kernel


/-! ## A state for the hypotheses of each statement -/

theorem witness_LegalHostWordIsTheEncodingOfItsMeaning : decodeHost 0x12005100#32 = .ok (.setres 0#8 81#8) := by decide

theorem witness_DecodedFrameIsItsEncodingButForTheChecksum :
    decodeFrame (raw [0#8, 0#8, 0#8, 0#8, 0x00#8, 0x07#8, 0x04#8, 0x05#8, 0#8, 0x20#8, 0x08#8, 0x00#8, 0x64#8] 0x00#8) =
      .ok (.ressetExt 8200#16 100#16) := by decide +kernel

theorem witness_IllegalWordCompletesWithIllegalOp :
    let s := presenting 0x01000001#32 (idle 0#8 false)
    s.phase = .idle ∧ s.env.host = .word 0x01000001#32 :: [] ∧ ∀ i, decodeHost 0x01000001#32 ≠ .ok i := by
  refine ⟨rfl, rfl, fun i h => ?_⟩
  have e : decodeHost 0x01000001#32 = .error .illegalHostWord := by decide
  rw [e] at h
  cases h

/-- The first and last byte covered, and the bytes next to them. -/
theorem witness_ChecksumCoversExactlyBytes2To87 :
    (2 < 90 ∧ 2 ≤ 2 ∧ 2 ≤ 87) ∧ (87 < 90 ∧ 2 ≤ 87 ∧ 87 ≤ 87) ∧ (1 < 90 ∧ ¬(2 ≤ 1 ∧ 1 ≤ 87)) ∧
      (88 < 90 ∧ ¬(2 ≤ 88 ∧ 88 ≤ 87)) := by decide

/-- An access that ends at byte 89, one that ends past it, and a byte never written. -/
theorem witness_BufferReadsGiveWhatWasWritten :
    88 + [1#8, 2#8].length ≤ 90 ∧ 90 < 89 + [1#8, 2#8].length ∧
      (89 + 1 ≤ 90 ∧ 89 ≤ 89 ∧ 89 < 89 + 1 ∧ peek fresh .rx 89 = none) := by decide

theorem witness_AcquireCountsUpOrIsBusyAt255 :
    ((idle 254#8 false).phase = .idle ∧ (idle 254#8 false).claimCnt ≠ 255#8) ∧
      ((idle 255#8 false).phase = .idle ∧ (idle 255#8 false).claimCnt = 255#8) := by decide

theorem witness_ReleaseCountsDownOrIsInvalidAt0 :
    ((idle 1#8 true).phase = .idle ∧ (idle 1#8 true).claimCnt ≠ 0#8) ∧
      ((idle 0#8 true).phase = .idle ∧ (idle 0#8 true).claimCnt = 0#8) := by decide

/-- Each clause: no claim; id 3, LED 2 Unsupported, code 3; LED 0 of an Extended and LED 2 of a Legacy block. -/
theorem witness_SetledWritesTheAddressedLed :
    ((idle 0#8 false).phase = .idle ∧ (idle 0#8 false).claimCnt = 0#8) ∧
      ((idle 1#8 false).phase = .idle ∧ (idle 1#8 false).claimCnt ≠ 0#8 ∧ 2 < (3#8 : Byte).toNat ∧
        ledOf (idle 1#8 false).conf (2#8 : Byte).toNat = 0#2 ∧ (3#8 : Byte) ≠ 1#8 ∧ (3#8 : Byte) ≠ 2#8) ∧
      ((0#8 : Byte).toNat ≤ 2 ∧ ledOf (idle 1#8 false).conf (0#8 : Byte).toNat ≠ 0#2) ∧
      ((legacyIdle 1#8).phase = .idle ∧ (legacyIdle 1#8).claimCnt ≠ 0#8 ∧ (2#8 : Byte).toNat ≤ 2 ∧
        ledOf (legacyIdle 1#8).conf (2#8 : Byte).toNat ≠ 0#2) := by decide

theorem witness_SetfreqWritesTheCode : (idle 1#8 false).phase = .idle ∧ (idle 1#8 false).claimCnt ≠ 0#8 := by decide

/-- Each clause: no claim; axis 2, and the first index past each table; the last index of each table. -/
theorem witness_SetresWritesTheAddressedCursor :
    ((idle 0#8 false).phase = .idle ∧ (idle 0#8 false).claimCnt = 0#8) ∧
      ((2#8 : Byte) ≠ 0#8 ∧ (2#8 : Byte) ≠ 1#8 ∧ 82 ≤ (82#8 : Byte).toNat ∧ 56 ≤ (56#8 : Byte).toNat) ∧
      ((idle 1#8 false).phase = .idle ∧ (idle 1#8 false).claimCnt ≠ 0#8 ∧ (idle 1#8 false).conf.variant = .extended ∧
        (81#8 : Byte).toNat < 82) ∧
      ((legacyIdle 1#8).phase = .idle ∧ (legacyIdle 1#8).claimCnt ≠ 0#8 ∧ (legacyIdle 1#8).conf.variant = .legacy ∧
        (55#8 : Byte).toNat < 56) := by decide

theorem witness_UnclaimedCommitIsBusy : (idle 0#8 false).phase = .idle ∧ (idle 0#8 false).claimCnt = 0#8 := by decide

/-- Dirty, and Clean but forced. -/
theorem witness_CommitStartsWithTheResolutionFrame :
    ((idle 1#8 true).phase = .idle ∧ (idle 1#8 true).claimCnt ≠ 0#8 ∧ (false = true ∨ (idle 1#8 true).dirty = true)) ∧
      ((legacyIdle 1#8).phase = .idle ∧ (legacyIdle 1#8).claimCnt ≠ 0#8 ∧ (true = true ∨ (legacyIdle 1#8).dirty = true)) := by
  decide

theorem witness_CleanCommitSendsNothing :
    (idle 1#8 false).phase = .idle ∧ (idle 1#8 false).claimCnt ≠ 0#8 ∧ (idle 1#8 false).dirty = false := by decide

theorem witness_OfflineAnswersEveryWordWithOffline :
    ((presenting 0x01000001#32 dead).phase = .offline ∧ (presenting 0x01000001#32 dead).env.host = .word 0x01000001#32 :: []) ∧
      (∃ t, dead.phase = .offline ∧ positionOk dead = true ∧ noReset dead = true ∧ step dead = .next t) :=
  ⟨by decide, _, rfl, by decide, rfl, rfl⟩

theorem witness_ErrorsOfHostWordsArePrecise :
    let s := presenting 0x11010000#32 (idle 0#8 false)
    (portReady s = true ∧ s.env.host = .word 0x11010000#32 :: [] ∧ ResultCode.busy ≠ .ok) ∧
      ∃ t, step s = .next t ∧ t.trace = s.trace ++ [.done .busy] := ⟨by decide, answers (by decide +kernel)⟩

/-- Ready in IDLE and in OFFLINE. -/
theorem witness_StepExecutesTheHostWord :
    (portReady (presenting 0x11010000#32 (idle 1#8 false)) = true ∧ portReady (presenting 0x11010000#32 dead) = true) ∧
      (presenting 0x11010000#32 (idle 1#8 false)).env.host = .word 0x11010000#32 :: [] ∧
      decodeHost 0x11010000#32 = .ok (.setfreq 1#8) := by decide

theorem witness_StepExecutesTheSequencersFrame :
    (fresh.env.host = [] ∧ fresh.pc = { routine := .init, stage := .probe, wait := .none }) ∧
      let s := { committing .freq .none [] [] with micro := { Micro.discarded with cur := freqsetFrame 8#8 } }
      s.env.host = [] ∧ s.pc.routine ≠ .none ∧ s.pc.wait = .none ∧
        s.pc ≠ { routine := .init, stage := .probe, wait := .none } ∧ decodeFrame s.micro.cur = .ok (.freqset 8#8) := by
  decide +kernel

theorem witness_WordWaitsWhileThePortIsNotReady :
    let s := presenting 0x01000000#32 (committing .res .write [.accepted 90] [])
    (s.phase = .init ∨ s.phase = .busy) ∧ s.env.host = .word 0x01000000#32 :: [] := by decide

theorem witness_NoAnswerNoChange :
    (committing .res .read [] []).env.host = [] ∧ (committing .res .read [] []).pc.wait ≠ .none ∧
      answerReady (committing .res .read [] []) = false := by decide

/-- With no request outstanding, and with a write, a read and a sleep outstanding and answered. -/
theorem witness_ResetTakesEveryRegisterToItsResetValue :
    let resetting (s : State) := { s with env := { s.env with host := [.reset .legacy true] } }
    let w := resetting (committing .res .write [.accepted 90] [])
    let r := resetting (committing .led .read [] [.returned good])
    let z := resetting (probing 2 .probe .sleep [] [] 1)
    ([resetting dead, w, r, z].all fun s => s.env.host == [.reset .legacy true]) = true ∧
      (resetting dead).pc.wait = .none ∧ (w.pc.wait = .write ∧ w.env.writes ≠ []) ∧ (r.pc.wait = .read ∧ r.env.reads ≠ []) ∧
      (z.pc.wait = .sleep ∧ z.env.ticks ≠ 0) := by decide

theorem witness_AcceptedWriteIsFollowedByARead :
    let s := committing .led .write [.accepted 90] []
    noReset s = true ∧ portReady s = false ∧ s.pc.routine ≠ .none ∧ s.pc.wait = .write ∧
      s.env.writes = .accepted 90 :: [] := by decide

/-- A timeout, a short read and an over-long read; the second attempt is the last that is repeated. -/
theorem witness_FailedReadIsRepeatedUpToThreeAttempts :
    let s := committing .led .read [] [.timeout]
    let s2 := { s with micro := { s.micro with rattempt := 2 } }
    (noReset s2 = true ∧ portReady s2 = false ∧ s2.pc.routine ≠ .none ∧ s2.pc.wait = .read ∧
      s2.env.reads = .timeout :: [] ∧ s2.micro.rattempt < 3) ∧
      ¬fullRead .timeout ∧ ¬fullRead (.returned (List.replicate 89 0#8)) ∧ ¬fullRead (.returned (List.replicate 91 0#8)) := by
  refine ⟨by decide, ?_, ?_, ?_⟩
  · rintro ⟨bs, h, _⟩; cases h
  · rintro ⟨bs, h, hl⟩; injection h with h; subst h; simp at hl
  · rintro ⟨bs, h, hl⟩; injection h with h; subst h; simp at hl

/-- A short write, and the third failed read. -/
theorem witness_FailedExchangeEndsTheCommit :
    (let s := committing .res .write [.accepted 89] []
     noReset s = true ∧ portReady s = false ∧ s.pc.routine = .commit ∧ s.pc.stage = .res ∧ exchangeFails s) ∧
      let s := thirdRead (committing .freq .read [] [.timeout])
      noReset s = true ∧ portReady s = false ∧ s.pc.routine = .commit ∧ s.pc.stage = .freq ∧ exchangeFails s := by
  refine ⟨⟨rfl, rfl, rfl, rfl, .inl ⟨rfl, _, _, rfl, by decide⟩⟩, ⟨rfl, rfl, rfl, rfl, .inr ⟨rfl, by decide, _, _, rfl, ?_⟩⟩⟩
  rintro ⟨bs, h, _⟩; cases h

theorem witness_FailedExchangeEndsInitialization :
    let s := probing 1 .led .write [.timeout] [] 0
    noReset s = true ∧ portReady s = false ∧ s.pc.routine = .init ∧ s.pc.stage = .led ∧ exchangeFails s :=
  ⟨rfl, rfl, rfl, rfl, .inl ⟨rfl, _, _, rfl, by decide⟩⟩

/-- Attempt 4 by a failed write and attempt 5 by a response whose high byte is 0. -/
theorem witness_FailedProbeAttemptSleepsOrGivesUp :
    (let s := probing 4 .probe .write [.timeout] [] 0
     noReset s = true ∧ portReady s = false ∧ s.pc.routine = .init ∧ s.pc.stage = .probe ∧ s.micro.pattempt < 5 ∧
       exchangeFails s) ∧
      let bs := resp 0#8 0x00#8 0xFF#8 0xFF#8
      let s := probing 5 .probe .read [] [.returned bs] 0
      noReset s = true ∧ portReady s = false ∧ s.pc.routine = .init ∧ s.pc.stage = .probe ∧ ¬s.micro.pattempt < 5 ∧
        s.pc.wait = .read ∧ s.env.reads = .returned bs :: [] ∧ bs.length = 90 ∧ bs[8]? = some 0#8 :=
  ⟨⟨rfl, rfl, rfl, rfl, by decide, .inl ⟨rfl, _, _, rfl, by decide⟩⟩, by decide⟩

theorem witness_TimerAnswerStartsTheNextAttempt :
    let s := probing 2 .probe .sleep [] [] 1
    noReset s = true ∧ portReady s = false ∧ s.pc.routine ≠ .none ∧ s.pc.wait = .sleep ∧ s.env.ticks = 0 + 1 := by decide

theorem witness_ProbeResponseSetsTheVersionAndStartsTheCommit :
    let s := probing 5 .probe .read [] [.returned good] 0
    noReset s = true ∧ portReady s = false ∧ s.pc.routine = .init ∧ s.pc.stage = .probe ∧ s.pc.wait = .read ∧
      s.env.reads = .returned good :: [] ∧ good.length = 90 ∧ good[8]? = some 0x01#8 ∧ good[9]? = some 0x05#8 ∧
      (0x01#8 : Byte) ≠ 0#8 := by decide

/-- From the resolution frame to LED 0, and from LED 0 to LED 1. -/
theorem witness_ResponseLeadsToTheNextSupportedLed :
    (let s := committing .res .read [] [.returned good]
     noReset s = true ∧ portReady s = false ∧ s.pc.routine ≠ .none ∧ s.pc.wait = .read ∧
       s.env.reads = .returned good :: [] ∧ good.length = 90 ∧ s.pc.stage = .res ∧ supportedFrom s.conf 0 = 0 :: [1]) ∧
      let s := committing .led .read [] [.returned good]
      noReset s = true ∧ portReady s = false ∧ s.pc.routine ≠ .none ∧ s.pc.wait = .read ∧
        s.env.reads = .returned good :: [] ∧ good.length = 90 ∧ s.pc.stage = .led ∧
        supportedFrom s.conf (s.micro.led + 1) = 1 :: [] := by decide

/-- In a COMMIT and in initialization: after LED 1 with FREQ 3, the last code that is sent, and with the reserved FREQ 4 (M6);
and from the resolution frame when every LED is Unsupported (M4). -/
theorem witness_FrequencyStepFollowsTheLastLed :
    let afterLed1 (s : State) := { s with micro := { s.micro with led := 1 } }
    let reserved (s : State) := { s with conf := { s.conf with freq := 4#8 } }
    let c := afterLed1 (committing .led .read [] [.returned good])
    let n := afterLed1 (probing 1 .led .read [] [.returned good] 0)
    let r := committing .res .read [] [.returned good]
    let r := { r with conf := { r.conf with led0 := 0#2, led1 := 0#2 } }
    (([c, reserved c, n, reserved n].all fun s =>
        noReset s && !portReady s && (s.pc.routine == .init || s.pc.routine == .commit) && s.pc.wait == .read &&
          s.env.reads == [.returned good] && good.length == 90 && s.pc.stage == .led &&
          supportedFrom s.conf (s.micro.led + 1) == []) = true) ∧
      (c.pc.routine = .commit ∧ n.pc.routine = .init ∧ c.conf.freq.toNat ≤ 3 ∧ n.conf.freq.toNat ≤ 3 ∧
        ¬(reserved c).conf.freq.toNat ≤ 3 ∧ ¬(reserved n).conf.freq.toNat ≤ 3) ∧
      (noReset r = true ∧ portReady r = false ∧ r.pc.routine = .commit ∧ r.pc.wait = .read ∧
        r.env.reads = .returned good :: [] ∧ r.pc.stage = .res ∧ supportedFrom r.conf 0 = []) := by decide

theorem witness_LastResponseCompletesWithOk :
    (let s := committing .freq .read [] [.returned good]
     noReset s = true ∧ portReady s = false ∧ (s.pc.routine = .init ∨ s.pc.routine = .commit) ∧ s.pc.stage = .freq ∧
       s.pc.wait = .read ∧ s.env.reads = .returned good :: [] ∧ good.length = 90) ∧
      let s := probing 1 .freq .read [] [.returned good] 0
      noReset s = true ∧ portReady s = false ∧ (s.pc.routine = .init ∨ s.pc.routine = .commit) ∧ s.pc.stage = .freq ∧
        s.pc.wait = .read ∧ s.env.reads = .returned good :: [] := by decide

/-- In the middle of a COMMIT, of the probe, idle, and after reset. -/
theorem witness_EveryStepKeepsTheInvariant :
    let s1 := committing .led .read [] [.returned good]
    let s2 := probing 3 .probe .read [] [.timeout] 0
    let s3 := presenting 0x20010000#32 (idle 1#8 false)
    (inv s1 = true ∧ inv s2 = true ∧ inv s3 = true ∧ inv fresh = true) ∧
      (∃ t, step s1 = .next t ∧ t ≠ s1) ∧ (∃ t, step s2 = .next t ∧ t ≠ s2) ∧ (∃ t, step s3 = .next t ∧ t ≠ s3) ∧
      ∃ t, step fresh = .next t ∧ t ≠ fresh :=
  ⟨by decide, answers (by decide +kernel), answers (by decide +kernel), answers (by decide +kernel),
    answers (by decide +kernel)⟩

theorem witness_NoStepStopsWhereThePositionIsLegal :
    positionOk fresh = true ∧ positionOk (committing .freq .read [] []) = true ∧ positionOk dead = true := by decide

theorem witness_PhaseMovesOnlyAsListed :
    let s := presenting 0x20010000#32 (idle 1#8 false)
    (positionOk s = true ∧ noReset s = true) ∧ ∃ t, step s = .next t ∧ t.phase = .busy :=
  ⟨by decide, answers (by decide +kernel)⟩

theorem witness_EveryEventIsOneTheBlockMayAppend :
    let s := { committing .freq .read [] [.returned (resp 3#8 0#8 0#8 0x55#8)] with trace := [.rdReq (readSetup prm)] }
    (positionOk s = true ∧ traceOk s = true) ∧ ∃ t, step s = .next t ∧ t.trace.length = 4 :=
  ⟨by decide, answers (by decide +kernel)⟩

theorem witness_EveryFrameWrittenMeetsTheSendConstraints :
    noReset fresh = true ∧ ∃ t, step fresh = .next t ∧ (framesWritten t.trace).length = 1 :=
  ⟨rfl, answers (by decide +kernel)⟩

theorem witness_TheOutstandingRequestIsTheLastEvent :
    let s := { committing .led .read [] [.returned good] with trace := [.rdReq (readSetup prm)] }
    (positionOk s = true ∧ lastEventOk s = true) ∧ ∃ t, step s = .next t ∧ t.pc.wait = .write :=
  ⟨by decide, answers (by decide +kernel)⟩

/-- A request after a taken answer and logs, at the start of initialization and at the start of a COMMIT; and no request from an
answer that ends the routine and from one that has not come. -/
theorem witness_ARequestIsIssuedOnlyAfterThePreviousAnswer :
    let c := committing .led .read [] [.returned (resp 3#8 0#8 0#8 0x55#8)]
    let p := presenting 0x20010000#32 (idle 1#8 false)
    let e := committing .res .write [.timeout] []
    let w := committing .res .write [] []
    ([c, fresh, p, e, w].all fun s => positionOk s && noReset s) = true ∧
      (∃ t, step c = .next t ∧ t.trace.map isRequest = [false, false, true] ∧ t.env.reads = []) ∧
      (∃ t, step fresh = .next t ∧ t.trace.map isRequest = [true]) ∧
      (∃ t, step p = .next t ∧ t.trace.map isRequest = [true] ∧ t.phase = .busy) ∧
      (∃ t, step e = .next t ∧ t.trace.map isRequest = [false] ∧ t.pc = SeqPc.outside ∧ t.env.writes = []) ∧
      ∃ t, step w = .next t ∧ t = w :=
  ⟨by decide, answers (by decide +kernel), answers (by decide +kernel), answers (by decide +kernel),
    answers (by decide +kernel), answers (by decide +kernel)⟩

theorem witness_TxHoldsTheLastFrameWritten :
    txHoldsLastFrame fresh ∧ ∃ t, step fresh = .next t ∧ (framesWritten t.trace).length = 1 :=
  ⟨fun _ => rfl, answers (by decide +kernel)⟩

/-- Five attempts made and four sleeps taken, the last write unanswered. -/
def lastAttempt : State :=
  let w := Event.wrReq (writeSetup prm) fwqueryFrame
  { probing 5 .probe .write [.timeout] [] 0 with
    trace := [w, .sleepReq 250, w, .sleepReq 250, w, .sleepReq 250, w, .sleepReq 250, w] }

theorem query_isQueryFrame : isQueryFrame fwqueryFrame := by
  unfold isQueryFrame isFrame
  decide +kernel

theorem lastAttempt_counts : probeCountsOk lastAttempt := fun _ _ =>
  have q := query_isQueryFrame
  ⟨⟨q, q, q, q, q, trivial⟩, rfl⟩

theorem witness_ProbeGivesUpAfterFiveAttemptsAndFourSleeps :
    inv lastAttempt = true ∧ probeCountsOk lastAttempt ∧
      (noReset lastAttempt = true ∧ lastAttempt.phase = .init ∧ lastAttempt.pc.stage = .probe) ∧
      ∃ t, step lastAttempt = .next t ∧ t.phase = .offline :=
  ⟨by decide, lastAttempt_counts, by decide, answers (by decide +kernel)⟩

theorem witness_TraceIsAppendOnly : noReset fresh = true ∧ ∃ t, step fresh = .next t ∧ t.trace ≠ fresh.trace :=
  ⟨rfl, answers (by decide +kernel)⟩

/-- A step that issues a request and one that completes. -/
theorem witness_ResultIsWrittenAtCompletionOnly :
    (noReset fresh = true ∧ ∃ t, step fresh = .next t ∧ t.result = 0#8) ∧
      noReset lastAttempt = true ∧ ∃ t, step lastAttempt = .next t ∧ t.result = 2#8 :=
  ⟨⟨rfl, answers (by decide +kernel)⟩, rfl, answers (by decide +kernel)⟩

theorem witness_VariantIsWrittenByResetOnly :
    (noReset fresh = true ∧ ∃ t, step fresh = .next t ∧ t ≠ fresh) ∧
      let s := { dead with env := { dead.env with host := [.reset .legacy true] } }
      s.env.host = .reset .legacy true :: [] := ⟨⟨rfl, answers (by decide +kernel)⟩, rfl⟩

theorem witness_RunningRoutinesWriteNoConfiguration :
    let s := committing .freq .read [] [.returned good]
    ((s.phase = .init ∨ s.phase = .busy) ∧ positionOk s = true ∧ noReset s = true) ∧
      ∃ t, step s = .next t ∧ t.phase = .idle := ⟨by decide, answers (by decide +kernel)⟩

theorem witness_UnsupportedLedsStayUnsupported :
    let s := presenting 0x10020200#32 (idle 1#8 false)
    (noReset s = true ∧ ledOf s.conf 2 = 0#2) ∧ ∃ t, step s = .next t ∧ t.result = 4#8 :=
  ⟨by decide, answers (by decide +kernel)⟩

theorem witness_UnclaimedBlockSendsNothingAndKeepsItsConfiguration :
    let s := presenting 0x20010000#32 (idle 0#8 true)
    (s.phase = .idle ∧ positionOk s = true ∧ s.claimCnt = 0#8 ∧ noReset s = true) ∧
      ∃ t, step s = .next t ∧ t.result = 3#8 := ⟨by decide, answers (by decide +kernel)⟩

/-- A step that writes RX, and one whose read is too short. -/
theorem witness_RxIsWrittenWholeOrNotAtAll :
    let s1 := committing .res .read [] [.returned good]
    let s2 := committing .res .read [] [.returned (List.replicate 89 0#8)]
    (noReset s1 = true ∧ ∃ t, step s1 = .next t ∧ peek t .rx 89 = some 0#8) ∧
      noReset s2 = true ∧ ∃ t, step s2 = .next t ∧ peek t .rx 0 = none :=
  ⟨⟨rfl, answers (by decide +kernel)⟩, rfl, answers (by decide +kernel)⟩

theorem witness_UncheckedResponseBytesHaveNoEffect :
    let s := probing 1 .probe .read [] [] 0
    let c := respOtherId 0#8 0x01#8 0x05#8 0x04#8
    (noReset s = true ∧ portReady s = false ∧ s.pc.routine ≠ .none ∧ s.pc.wait = .read ∧ good.length = 90 ∧ c.length = 90 ∧
        c ≠ good ∧ byteAt (frameOf good) 0 = byteAt (frameOf c) 0 ∧ byteAt (frameOf good) 8 = byteAt (frameOf c) 8 ∧
        byteAt (frameOf good) 9 = byteAt (frameOf c) 9 ∧ byteAt (frameOf good) 88 = byteAt (frameOf c) 88 ∧
        checksum (frameOf good) = checksum (frameOf c)) ∧
      ∃ t, step { s with env := { s.env with reads := .returned good :: [] } } = .next t ∧ t.fwver = 0x0105#16 :=
  ⟨by decide +kernel, answers (by decide +kernel)⟩

theorem witness_EachAnswerShortensTheRoutine :
    let s := committing .freq .write [.accepted 90] []
    (inv s = true ∧ (s.phase = .init ∨ s.phase = .busy) ∧ noReset s = true ∧ answerReady s = true) ∧
      ∃ t, step s = .next t ∧ stepsLeft t = 3 := ⟨by decide, answers (by decide +kernel)⟩

/-- From reset, with 45 answers of each agent. -/
theorem witness_EveryRoutineEnds :
    let s := { fresh with env := ⟨[], List.replicate 45 .timeout, List.replicate 45 .timeout, 45⟩ }
    inv s = true ∧ s.env.host = [] ∧ stepsLeft s ≤ s.env.writes.length ∧ stepsLeft s ≤ s.env.reads.length ∧
      stepsLeft s ≤ s.env.ticks := by decide

theorem witness_CommitSendsTheWholeSequenceInOrder :
    let responses := List.replicate 4 good
    let s := { idle 1#8 false with
      env := ⟨[.word 0x20010000#32], List.replicate 4 (.accepted 90), List.replicate 4 (.returned good), 0⟩ }
    s.phase = .idle ∧ s.claimCnt ≠ 0#8 ∧ (true = true ∨ s.dirty = true) ∧ s.conf.freq.toNat ≤ 3 ∧
      encode (.commit true) = .host 0x20010000#32 ∧ s.env.host = [.word 0x20010000#32] ∧
      responses.length = 2 + (supportedFrom s.conf 0).length ∧ (∀ b ∈ responses, b.length = 90) ∧
      s.env.writes = List.replicate responses.length (.accepted 90) ++ [] ∧
      s.env.reads = responses.map ReadAnswer.returned ++ [] := by
  refine ⟨rfl, by decide, .inl rfl, by decide, by decide, rfl, by decide, ?_, rfl, rfl⟩
  intro b hb
  rw [List.eq_of_mem_replicate hb]
  rfl

end Sys2Proof.Tests
end

section
/-! What one move of the block does, register by register: the trace and what is tied to it (`Ending`), the control
registers (`Control`), CONFIG, RX and the inputs. Every statement about all steps is derived from these. -/

namespace Sys2Proof.Machine

open Sys2Proof.Safety

/-! ## Ends of the routines -/

/-- The state in which init() leaves the block (R170, R171, R172). -/
def initDone (r : ResultCode) (s : State) : State :=
  complete r (setPc SeqPc.outside
    (setPhase (if r = .ok then .idle else .offline) (setClaims 0#8 (settleDirty r s))))

/-- The state in which a COMMIT that ran its sequence leaves the block (R198). -/
def commitDone (r : ResultCode) (s : State) : State :=
  complete r (setPc SeqPc.outside (setPhase .idle (settleDirty r s)))

@[simp] theorem initDone_phase (r : ResultCode) (s : State) :
    (initDone r s).phase = if r = .ok then .idle else .offline := rfl
@[simp] theorem initDone_dirty (r : ResultCode) (s : State) :
    (initDone r s).dirty = if r = .ok then false else s.dirty := rfl
@[simp] theorem initDone_claimCnt (r : ResultCode) (s : State) : (initDone r s).claimCnt = 0#8 := rfl
@[simp] theorem initDone_conf (r : ResultCode) (s : State) : (initDone r s).conf = s.conf := rfl
@[simp] theorem initDone_thumbPresent (r : ResultCode) (s : State) : (initDone r s).thumbPresent = s.thumbPresent := rfl
@[simp] theorem initDone_fwver (r : ResultCode) (s : State) : (initDone r s).fwver = s.fwver := rfl
@[simp] theorem initDone_result (r : ResultCode) (s : State) : (initDone r s).result = resultCode r := rfl
@[simp] theorem initDone_pc (r : ResultCode) (s : State) : (initDone r s).pc = SeqPc.outside := rfl
@[simp] theorem initDone_micro (r : ResultCode) (s : State) : (initDone r s).micro = s.micro := rfl
@[simp] theorem initDone_tx (r : ResultCode) (s : State) : (initDone r s).tx = s.tx := rfl
@[simp] theorem initDone_rx (r : ResultCode) (s : State) : (initDone r s).rx = s.rx := rfl
@[simp] theorem initDone_trace (r : ResultCode) (s : State) : (initDone r s).trace = s.trace ++ [.done r] := rfl
@[simp] theorem initDone_params (r : ResultCode) (s : State) : (initDone r s).params = s.params := rfl

@[simp] theorem commitDone_phase (r : ResultCode) (s : State) : (commitDone r s).phase = .idle := rfl
@[simp] theorem commitDone_dirty (r : ResultCode) (s : State) :
    (commitDone r s).dirty = if r = .ok then false else s.dirty := rfl
@[simp] theorem commitDone_claimCnt (r : ResultCode) (s : State) : (commitDone r s).claimCnt = s.claimCnt := rfl
@[simp] theorem commitDone_conf (r : ResultCode) (s : State) : (commitDone r s).conf = s.conf := rfl
@[simp] theorem commitDone_thumbPresent (r : ResultCode) (s : State) :
    (commitDone r s).thumbPresent = s.thumbPresent := rfl
@[simp] theorem commitDone_fwver (r : ResultCode) (s : State) : (commitDone r s).fwver = s.fwver := rfl
@[simp] theorem commitDone_result (r : ResultCode) (s : State) : (commitDone r s).result = resultCode r := rfl
@[simp] theorem commitDone_pc (r : ResultCode) (s : State) : (commitDone r s).pc = SeqPc.outside := rfl
@[simp] theorem commitDone_micro (r : ResultCode) (s : State) : (commitDone r s).micro = s.micro := rfl
@[simp] theorem commitDone_tx (r : ResultCode) (s : State) : (commitDone r s).tx = s.tx := rfl
@[simp] theorem commitDone_rx (r : ResultCode) (s : State) : (commitDone r s).rx = s.rx := rfl
@[simp] theorem commitDone_trace (r : ResultCode) (s : State) : (commitDone r s).trace = s.trace ++ [.done r] := rfl
@[simp] theorem commitDone_params (r : ResultCode) (s : State) : (commitDone r s).params = s.params := rfl

@[simp] theorem received_phase (b : List Byte) (s : State) : (received b s).phase = s.phase := rfl
@[simp] theorem received_dirty (b : List Byte) (s : State) : (received b s).dirty = s.dirty := rfl
@[simp] theorem received_claimCnt (b : List Byte) (s : State) : (received b s).claimCnt = s.claimCnt := rfl
@[simp] theorem received_conf (b : List Byte) (s : State) : (received b s).conf = s.conf := rfl
@[simp] theorem received_thumbPresent (b : List Byte) (s : State) : (received b s).thumbPresent = s.thumbPresent := rfl
@[simp] theorem received_fwver (b : List Byte) (s : State) : (received b s).fwver = s.fwver := rfl
@[simp] theorem received_result (b : List Byte) (s : State) : (received b s).result = s.result := rfl
@[simp] theorem received_pc (b : List Byte) (s : State) : (received b s).pc = s.pc := rfl
@[simp] theorem received_micro (b : List Byte) (s : State) : (received b s).micro = s.micro := rfl
@[simp] theorem received_tx (b : List Byte) (s : State) : (received b s).tx = s.tx := rfl
@[simp] theorem received_rx (b : List Byte) (s : State) : (received b s).rx = Memory.writeBytes s.rx 0 b := rfl
@[simp] theorem received_trace (b : List Byte) (s : State) : (received b s).trace = s.trace := rfl
@[simp] theorem received_params (b : List Byte) (s : State) : (received b s).params = s.params := rfl

theorem eq_of_initFinish {r : ResultCode} {s t : State} (h : initFinish r s = .next t) : t = initDone r s :=
  (Host.Outcome.next.inj h).symm

theorem eq_of_commitFinish {r : ResultCode} {s t : State} (h : commitFinish r s = .next t) : t = commitDone r s :=
  (Host.Outcome.next.inj h).symm

/-- Inside a routine commitSeq returns to that routine, which ends. -/
theorem commitReturn_cases {r : ResultCode} {s t : State} (hr : s.pc.routine ≠ .none)
    (h : commitReturn r s = .next t) :
    (s.pc.routine = .init ∧ t = initDone r s) ∨ (s.pc.routine = .commit ∧ t = commitDone r s) := by
  unfold commitReturn at h
  cases hrt : s.pc.routine with
  | none => exact absurd hrt hr
  | init => rw [hrt] at h; exact .inl ⟨rfl, eq_of_initFinish h⟩
  | commit => rw [hrt] at h; exact .inr ⟨rfl, eq_of_commitFinish h⟩

/-! ## The trace: what a move appends -/

/-- The log events of at most one response. -/
def IsLogs (logs : List Event) : Prop := logs = [] ∨ ∃ f, logs = responseLogs f

theorem isLogs_nil : IsLogs [] := .inl rfl

/-- A log is no request and no completion (R130, R131). -/
theorem IsLogs.forall_log {logs : List Event} (h : IsLogs logs) {e : Event} (he : e ∈ logs) :
    (∃ c r, e = .logCk c r) ∨ ∃ st, e = .logAnom st := by
  rcases h with rfl | ⟨f, rfl⟩
  · simp at he
  · rw [responseLogs, List.mem_append] at he
    rcases he with he | he <;> split at he
    · simp at he
    · exact .inl ⟨_, _, List.mem_singleton.mp he⟩
    · simp at he
    · exact .inr ⟨_, List.mem_singleton.mp he⟩

theorem IsLogs.done_not_mem {logs : List Event} (h : IsLogs logs) (r : ResultCode) : .done r ∉ logs := by
  intro hr
  rcases h.forall_log hr with ⟨_, _, he⟩ | ⟨_, he⟩ <;> cases he

theorem logChecksum_trace (f : Frame) (s : State) :
    (logChecksum f s).trace =
      s.trace ++ if checksum f = byteAt f 88 then [] else [.logCk (checksum f) (byteAt f 88)] := by
  have hck : ckOk f = decide (checksum f = byteAt f 88) := rfl
  by_cases h : checksum f = byteAt f 88
  · simp [logChecksum, hck, h]
  · simp [logChecksum, hck, h, decodeFields]

theorem logStatus_trace (f : Frame) (s : State) :
    (logStatus f s).trace =
      s.trace ++ if byteAt f 0 = 0#8 ∨ byteAt f 0 = 1#8 ∨ byteAt f 0 = 2#8 then [] else [.logAnom (byteAt f 0)] := by
  by_cases h : byteAt f 0 = 0#8 ∨ byteAt f 0 = 1#8 ∨ byteAt f 0 = 2#8 <;>
    simp_all [logStatus, statusNormal, decodeFields, or_assoc]

/-- An exchange appends the logs of its response and nothing else (R129). -/
theorem Exchange.logs {u v : State} {r : ResultCode} (h : Exchange u r v) :
    ∃ logs, IsLogs logs ∧ v.trace = u.trace ++ logs := by
  cases h with
  | failedWrite _ => exact ⟨[], isLogs_nil, (List.append_nil _).symm⟩
  | failedRead _ _ => exact ⟨[], isLogs_nil, (List.append_nil _).symm⟩
  | response _ b _ =>
    refine ⟨responseLogs (frameOf b), .inr ⟨_, rfl⟩, ?_⟩
    rw [logStatus_trace, logChecksum_trace, List.append_assoc]
    rfl

/-- How a move from u to t ends, after the logs of a response: with no further event, with one request, which t then waits
for, or with one completion. With it go the registers tied to the last event: RESULT, TX, SEQ_PC and `cur`. -/
inductive Ending (u t : State) (logs : List Event) : Prop
  /-- Nothing but logs; and logs only at a stage that no routine has (log 7). -/
  | still (htr : t.trace = u.trace ++ logs) (hres : t.result = u.result) (htx : t.tx = u.tx) (hpc : t.pc = u.pc)
      (hcur : t.micro.cur = u.micro.cur) (hlogs : logs = [] ∨ (u.pc.routine ≠ .none ∧ u.pc.stage = .absent))
  | writes (f : Frame) (htr : t.trace = u.trace ++ logs ++ [.wrReq (writeSetup u.params) (withChecksum f)])
      (hres : t.result = u.result) (htx : t.tx = Memory.writeBytes u.tx 0 (withChecksum f).bytes)
      (hwait : t.pc.wait = .write) (hcur : t.micro.cur = f)
  | reads (htr : t.trace = u.trace ++ logs ++ [.rdReq (readSetup u.params)]) (hres : t.result = u.result)
      (htx : t.tx = u.tx) (hwait : t.pc.wait = .read)
  | sleeps (htr : t.trace = u.trace ++ logs ++ [.sleepReq 250]) (hres : t.result = u.result) (htx : t.tx = u.tx)
      (hwait : t.pc.wait = .sleep)
  | completes (r : ResultCode) (htr : t.trace = u.trace ++ logs ++ [.done r]) (hres : t.result = resultCode r)
      (htx : t.tx = u.tx) (hpc : t.pc = SeqPc.outside ∨ (t.pc = u.pc ∧ (u.phase = .idle ∨ u.phase = .offline)))

/-- A send is an ending, whatever else was written before it. -/
theorem Ending.of_sent {u v : State} {logs : List Event} (f : Frame) (htr : v.trace = u.trace ++ logs)
    (hres : v.result = u.result) (htx : v.tx = u.tx) (hp : v.params = u.params) : Ending u (sent f v) logs :=
  .writes f (by rw [sent_trace, htr, hp]) hres (by rw [sent_tx, htx]) rfl rfl

/-- A completion at the port is an ending, whatever else was written before it. -/
theorem Ending.of_complete {u v : State} (r : ResultCode) (h : u.phase = .idle ∨ u.phase = .offline)
    (htr : v.trace = u.trace) (htx : v.tx = u.tx) (hpc : v.pc = u.pc) : Ending u (complete r v) [] :=
  .completes r (by rw [complete_trace, htr, List.append_nil]) rfl htx (.inr ⟨hpc, h⟩)

theorem Ending.of_initDone {u v : State} {logs : List Event} (r : ResultCode) (htr : v.trace = u.trace ++ logs)
    (htx : v.tx = u.tx) : Ending u (initDone r v) logs :=
  .completes r (congrArg (· ++ [Event.done r]) htr) rfl htx (.inl rfl)

theorem Ending.of_commitDone {u v : State} {logs : List Event} (r : ResultCode) (htr : v.trace = u.trace ++ logs)
    (htx : v.tx = u.tx) : Ending u (commitDone r v) logs :=
  .completes r (congrArg (· ++ [Event.done r]) htr) rfl htx (.inl rfl)

/-- A routine's end is an ending. -/
theorem Ending.of_commitReturn {u v t : State} {logs : List Event} {r : ResultCode} (hr : v.pc.routine ≠ .none)
    (h : commitReturn r v = .next t) (htr : v.trace = u.trace ++ logs) (htx : v.tx = u.tx) : Ending u t logs := by
  rcases commitReturn_cases hr h with ⟨_, rfl⟩ | ⟨_, rfl⟩
  · exact .of_initDone r htr htx
  · exact .of_commitDone r htr htx

/-- What follows an exchange ends after the logs of the exchange. -/
theorem Exchange.ending {u v t : State} {r : ResultCode} (hv : Exchange u r v)
    (h : ∀ logs, v.trace = u.trace ++ logs → Ending u t logs) : ∃ logs, IsLogs logs ∧ Ending u t logs := by
  obtain ⟨logs, hl, htr⟩ := hv.logs
  exact ⟨logs, hl, h logs htr⟩

/-- Every move has an ending. -/
theorem Move.ending {u t : State} (h : Move u t) : ∃ logs, IsLogs logs ∧ Ending u t logs := by
  have quiet : Ending u t [] → ∃ logs, IsLogs logs ∧ Ending u t logs := fun h => ⟨[], isLogs_nil, h⟩
  have nil : u.trace = u.trace ++ [] := (List.append_nil _).symm
  cases h with
  | waits => exact quiet (.still nil rfl rfl rfl rfl (.inl rfl))
  | offline h => exact quiet (.of_complete _ (.inr h) rfl rfl rfl)
  | turnedAway h r _ => exact quiet (.of_complete _ (.inl h) rfl rfl rfl)
  | cleanCommit h _ _ => exact quiet (.of_complete _ (.inl h) rfl rfl rfl)
  | acquires h _ => exact quiet (.of_complete _ (.inl h) rfl rfl rfl)
  | releases h _ => exact quiet (.of_complete _ (.inl h) rfl rfl rfl)
  | setsLed h _ i _ c _ _ => exact quiet (.of_complete _ (.inl h) (by simp) (by simp) (by simp))
  | setsFreq h _ _ _ => exact quiet (.of_complete _ (.inl h) rfl rfl rfl)
  | setsX h _ _ _ => exact quiet (.of_complete _ (.inl h) rfl rfl rfl)
  | setsY h _ _ _ => exact quiet (.of_complete _ (.inl h) rfl rfl rfl)
  | commits _ _ _ _ => exact quiet (.of_sent _ nil rfl rfl rfl)
  | starts _ => exact quiet (.of_sent _ nil rfl rfl rfl)
  | sendsCur _ _ _ f _ _ _ => exact quiet (.of_sent f nil rfl rfl rfl)
  | written _ _ => exact quiet (.reads (by simp) rfl rfl rfl)
  | rereads _ _ _ => exact quiet (.reads (by simp) rfl rfl rfl)
  | wakes _ _ => exact quiet (.of_sent _ nil rfl rfl rfl)
  | sleeps _ _ _ r v hv => exact hv.ending fun _ htr => .sleeps (by simp [htr]) hv.result hv.tx rfl
  | probeEnds _ _ _ r v t hv ht => exact hv.ending fun _ htr => eq_of_initFinish ht ▸ .of_initDone _ htr hv.tx
  | probed _ _ hw b hb _ =>
    exact (Exchange.response hw b hb).ending fun _ htr => .of_sent _ (by simpa using htr) (by simp) (by simp) (by simp)
  | nextLed _ _ _ _ _ v hv => exact hv.ending fun _ htr => .of_sent _ htr hv.result hv.tx hv.params
  | toFreq _ _ _ _ _ _ v hv => exact hv.ending fun _ htr => .of_sent _ htr hv.result hv.tx hv.params
  | badFreq hr _ _ _ _ v t hv ht =>
    exact hv.ending fun _ htr => .of_commitReturn (by simpa [hv.pc] using hr) ht htr hv.tx
  | ends hr r _ v t hv ht => exact hv.ending fun _ htr => .of_commitReturn (by rwa [hv.pc]) ht htr hv.tx
  | nowhere hr h r v hv =>
    exact hv.ending fun _ htr => .still htr hv.result hv.tx hv.pc (by rw [hv.micro]) (.inr ⟨hr, h⟩)

/-! ## CONFIG, RX and the inputs -/

/-- CONFIG is written by the setters alone, with the values R195, R196 and R197 allow, in IDLE and claimed. -/
theorem Move.conf_cases {u t : State} (h : Move u t) :
    t.conf = u.conf ∨
      ((u.phase = .idle ∧ claimed u = true) ∧
        ((∃ i c, i < 3 ∧ ledState u.conf i ≠ ledUnsupported ∧ (c = ledOff ∨ c = ledOn) ∧
            t.conf = (setLedState i c u).conf) ∨
          (∃ c, (c = 1#8 ∨ c = 2#8 ∨ c = 3#8) ∧ t.conf = { u.conf with freq := c }) ∨
          (∃ k, k.toNat < tableSize u.conf.variant ∧ t.conf = { u.conf with xmap := k }) ∨
          ∃ k, k.toNat < tableSize u.conf.variant ∧ t.conf = { u.conf with ymap := k })) := by
  cases h with
  | setsLed h hc i hi c hs hv => exact .inr ⟨⟨h, hc⟩, .inl ⟨i, c, hi, hs, hv, rfl⟩⟩
  | setsFreq h hc c hv => exact .inr ⟨⟨h, hc⟩, .inr (.inl ⟨c, hv, rfl⟩)⟩
  | setsX h hc k hk => exact .inr ⟨⟨h, hc⟩, .inr (.inr (.inl ⟨k, hk, rfl⟩))⟩
  | setsY h hc k hk => exact .inr ⟨⟨h, hc⟩, .inr (.inr (.inr ⟨k, hk, rfl⟩))⟩
  | sleeps _ _ _ _ _ hv => exact .inl (by simp [hv.conf])
  | nextLed _ _ _ _ _ _ hv => exact .inl (by simp [hv.conf])
  | toFreq _ _ _ _ _ _ _ hv => exact .inl (by simp [hv.conf])
  | nowhere _ _ _ _ hv => exact .inl hv.conf
  | probeEnds _ _ _ _ _ _ hv ht => exact .inl (by simp [eq_of_initFinish ht, hv.conf])
  | badFreq hr _ _ _ _ _ _ hv ht =>
    left
    rcases commitReturn_cases (by simpa [hv.pc] using hr) ht with ⟨_, rfl⟩ | ⟨_, rfl⟩ <;> simp [hv.conf]
  | ends hr _ _ _ _ hv ht =>
    left
    rcases commitReturn_cases (by rwa [hv.pc]) ht with ⟨_, rfl⟩ | ⟨_, rfl⟩ <;> simp [hv.conf]
  | _ => exact .inl (by simp)

/-- What every move leaves: THUMB_PRESENT and the parameters as they were, RX as it was or overwritten by a whole
response (R25, R56). -/
structure Keeps (u t : State) : Prop where
  thumbPresent : t.thumbPresent = u.thumbPresent
  params : t.params = u.params
  rx : t.rx = u.rx ∨ ∃ b : List Byte, b.length = frameLen ∧ t.rx = Memory.writeBytes u.rx 0 b

/-- What follows an exchange and writes none of these fields leaves them. -/
theorem Exchange.keeps {u v t : State} {r : ResultCode} (hv : Exchange u r v)
    (hth : t.thumbPresent = v.thumbPresent) (hpa : t.params = v.params) (hrx : t.rx = v.rx) : Keeps u t := by
  refine ⟨hth.trans hv.thumbPresent, hpa.trans hv.params, ?_⟩
  rw [hrx]
  cases hv with
  | failedWrite _ => exact .inl rfl
  | failedRead _ _ => exact .inl rfl
  | response _ b hb => exact .inr ⟨b, hb, by simp⟩

theorem Move.keeps {u t : State} (h : Move u t) : Keeps u t := by
  cases h with
  | sleeps _ _ _ _ _ hv => exact hv.keeps (by simp) (by simp) (by simp)
  | nextLed _ _ _ _ _ _ hv => exact hv.keeps (by simp) (by simp) (by simp)
  | toFreq _ _ _ _ _ _ _ hv => exact hv.keeps (by simp) (by simp) (by simp)
  | nowhere _ _ _ _ hv => exact hv.keeps rfl rfl rfl
  | probed _ _ hw b hb _ => exact (Exchange.response hw b hb).keeps (by simp) (by simp) (by simp)
  | probeEnds _ _ _ _ _ _ hv ht => cases eq_of_initFinish ht; exact hv.keeps (by simp) (by simp) (by simp)
  | badFreq hr _ _ _ _ _ _ hv ht =>
    rcases commitReturn_cases (by simpa [hv.pc] using hr) ht with ⟨_, rfl⟩ | ⟨_, rfl⟩ <;>
      exact hv.keeps (by simp) (by simp) (by simp)
  | ends hr _ _ _ _ hv ht =>
    rcases commitReturn_cases (by rwa [hv.pc]) ht with ⟨_, rfl⟩ | ⟨_, rfl⟩ <;>
      exact hv.keeps (by simp) (by simp) (by simp)
  | _ => exact ⟨by simp, by simp, .inl (by simp)⟩

/-! ## The position -/

/-- `positionOk` as four kinds of position (R20, R32). -/
inductive Position (s : State) : Prop
  | ready (hphase : s.phase = .idle ∨ s.phase = .offline) (hpc : s.pc = SeqPc.outside)
  | atReset (hphase : s.phase = .init) (hpc : s.pc = SeqPc.entry)
  | initializing (hphase : s.phase = .init) (hroutine : s.pc.routine = .init) (hstage : s.pc.stage ≠ .absent)
      (hwait : s.pc.wait ≠ .none) (hsleep : s.pc.wait = .sleep → s.pc.stage = .probe)
  | committing (hphase : s.phase = .busy) (hroutine : s.pc.routine = .commit)
      (hstage : s.pc.stage = .res ∨ s.pc.stage = .led ∨ s.pc.stage = .freq)
      (hwait : s.pc.wait = .write ∨ s.pc.wait = .read)

theorem position_of_positionOk {s : State} (h : positionOk s = true) : Position s := by
  unfold positionOk at h
  split at h
  next hp => exact .ready (.inl hp) (by simpa using h)
  next hp => exact .ready (.inr hp) (by simpa using h)
  next hp =>
    simp only [Bool.or_eq_true, Bool.and_eq_true, beq_iff_eq, bne_iff_ne] at h
    rcases h with h | ⟨⟨⟨hr, hs⟩, hw⟩, hz⟩
    · exact .atReset hp h
    · exact .initializing hp hr hs hw fun e => hz.resolve_left fun hn => hn e
  next hp =>
    simp only [Bool.or_eq_true, Bool.and_eq_true, beq_iff_eq] at h
    obtain ⟨⟨hr, hs⟩, hw⟩ := h
    exact .committing hp hr (by rwa [or_assoc] at hs) hw

theorem Position.positionOk {s : State} (h : Position s) : positionOk s = true := by
  unfold Safety.positionOk
  cases h with
  | ready hp hpc => rcases hp with hp | hp <;> simp [hp, hpc]
  | atReset hp hpc => simp [hp, hpc]
  | initializing hp hr hs hw hz =>
    by_cases h : s.pc.wait = .sleep
    · simp [hp, hr, hw, hz h]
    · simp [hp, hr, hs, hw, h]
  | committing hp hr hs hw => rcases hs with hs | hs | hs <;> simp [hp, hr, hs, hw]

/-- In IDLE and OFFLINE no routine runs. -/
theorem Position.pc_of_ready {s : State} (h : Position s) (hp : s.phase = .idle ∨ s.phase = .offline) :
    s.pc = SeqPc.outside := by
  cases h with
  | ready _ hpc => exact hpc
  | atReset hi _ => simp [hi] at hp
  | initializing hi _ _ _ _ => simp [hi] at hp
  | committing hb _ _ _ => simp [hb] at hp

/-- Initialization runs in INIT alone (R20). -/
theorem Position.phase_of_init {s : State} (h : Position s) (hr : s.pc.routine = .init) : s.phase = .init := by
  cases h with
  | ready _ hpc => rw [hpc] at hr; cases hr
  | atReset hphase _ => exact hphase
  | initializing hphase _ _ _ _ => exact hphase
  | committing _ hc _ _ => rw [hr] at hc; cases hc

/-- A COMMIT's sequence runs in BUSY alone (R20). -/
theorem Position.phase_of_commit {s : State} (h : Position s) (hr : s.pc.routine = .commit) : s.phase = .busy := by
  cases h with
  | ready _ hpc => rw [hpc] at hr; cases hr
  | atReset _ hpc => rw [hpc] at hr; cases hr
  | initializing _ hi _ _ _ => rw [hr] at hi; cases hi
  | committing hphase _ _ _ => exact hphase

/-- A routine that runs and waits is initialization in INIT or a COMMIT in BUSY. -/
theorem Position.of_running {s : State} (h : Position s) (hr : s.pc.routine ≠ .none) (hw : s.pc.wait ≠ .none) :
    (s.phase = .init ∧ s.pc.routine = .init) ∨
      (s.phase = .busy ∧ s.pc.routine = .commit ∧ s.pc.stage ≠ .probe ∧ s.pc.wait ≠ .sleep) := by
  cases h with
  | ready _ hpc => exact absurd (by rw [hpc]; rfl) hr
  | atReset _ hpc => exact absurd (by rw [hpc]; rfl) hw
  | initializing hp hr _ _ _ => exact .inl ⟨hp, hr⟩
  | committing hp hr hs hw =>
    exact .inr ⟨hp, hr, by rcases hs with h | h | h <;> simp [h], by rcases hw with h | h <;> simp [h]⟩

/-- In a routine that waits for nothing the block is at the reset position. -/
theorem Position.eq_entry {s : State} (h : Position s) (hr : s.pc.routine ≠ .none) (hw : s.pc.wait = .none) :
    s.pc = SeqPc.entry := by
  cases h with
  | ready _ hpc => exact absurd (by rw [hpc]; rfl) hr
  | atReset _ hpc => exact hpc
  | initializing _ _ _ hw' _ => exact absurd hw hw'
  | committing _ _ _ hw' => rcases hw' with h | h <;> simp [h] at hw

/-- Inside a routine the stage is one of the four listed (R32). -/
theorem Position.stage_ne_absent {s : State} (h : Position s) (hr : s.pc.routine ≠ .none) : s.pc.stage ≠ .absent := by
  cases h with
  | ready _ hpc => exact absurd (by rw [hpc]; rfl) hr
  | atReset _ hpc => rw [hpc]; decide
  | initializing _ _ hs _ _ => exact hs
  | committing _ _ hs _ => rcases hs with h | h | h <;> simp [h]

/-- Only initialization probes (R170). -/
theorem Position.routine_of_probe {s : State} (h : Position s) (hs : s.pc.stage = .probe) : s.pc.routine = .init := by
  cases h with
  | ready _ hpc => rw [hpc] at hs; cases hs
  | atReset _ hpc => rw [hpc]; rfl
  | initializing _ hr _ _ _ => exact hr
  | committing _ _ hs' _ => rcases hs' with h | h | h <;> simp [h] at hs

/-! ## The control registers -/

/-- A routine goes on from u to t: it waited, and PHASE, the claim and DIRTY stay (R169). -/
structure GoesOn (u t : State) : Prop where
  running : u.pc.routine ≠ .none
  waited : u.pc.wait ≠ .none
  phase : t.phase = u.phase
  claimCnt : t.claimCnt = u.claimCnt
  dirty : t.dirty = u.dirty

/-- What a move from a legal position does to the control registers: PHASE, SEQ_PC, the counters of the micro-state, the
claim, DIRTY and FWVER. -/
inductive Control (u t : State) : Prop
  | stays (hphase : t.phase = u.phase) (hpc : t.pc = u.pc) (hmicro : t.micro = u.micro) (hfw : t.fwver = u.fwver)
      (hport : u.phase = .idle ∨ (t.claimCnt = u.claimCnt ∧ t.dirty = u.dirty))
  | starts (h : u.pc = SeqPc.entry) (hphase : t.phase = u.phase) (hpc : t.pc = ⟨.init, .probe, .write⟩)
      (hattempt : t.micro.pattempt = 1) (hclaim : t.claimCnt = 1#8) (hdirty : t.dirty = u.dirty)
      (hfw : t.fwver = u.fwver)
  | commits (h : u.phase = .idle) (hclaimed : u.claimCnt ≠ 0#8) (hphase : t.phase = .busy)
      (hpc : t.pc = ⟨.commit, .res, .write⟩) (hclaim : t.claimCnt = u.claimCnt) (hfw : t.fwver = u.fwver)
  | reads (g : GoesOn u t) (hpc : t.pc = { u.pc with wait := .read })
      (hattempt : 1 ≤ t.micro.rattempt ∧ t.micro.rattempt ≤ 3) (hp : t.micro.pattempt = u.micro.pattempt)
      (hl : t.micro.led = u.micro.led) (hfw : t.fwver = u.fwver)
  | sleeps (g : GoesOn u t) (hs : u.pc.stage = .probe) (hpc : t.pc = { u.pc with wait := .sleep })
      (hp : t.micro.pattempt = u.micro.pattempt) (hlt : u.micro.pattempt < 5) (hfw : t.fwver = u.fwver)
  | wakes (g : GoesOn u t) (hw : u.pc.wait = .sleep) (hpc : t.pc = { u.pc with wait := .write })
      (hp : t.micro.pattempt = u.micro.pattempt + 1) (hl : t.micro.led = u.micro.led) (hfw : t.fwver = u.fwver)
  | probed (g : GoesOn u t) (hs : u.pc.stage = .probe) (hpc : t.pc = { u.pc with stage := .res, wait := .write })
      (hfw : hi8 t.fwver ≠ 0#8)
  | toLed (g : GoesOn u t) (hs : u.pc.stage = .res ∨ u.pc.stage = .led)
      (hpc : t.pc = { u.pc with stage := .led, wait := .write }) (hl : t.micro.led ≤ 2) (hfw : t.fwver = u.fwver)
  | toFreq (g : GoesOn u t) (hs : u.pc.stage = .res ∨ u.pc.stage = .led)
      (hpc : t.pc = { u.pc with stage := .freq, wait := .write }) (hl : t.micro.led = 3) (hfw : t.fwver = u.fwver)
  | initEnds (hr : u.pc.routine = .init) (hw : u.pc.wait ≠ .none) (r : ResultCode)
      (hs : r = .ok → u.pc.stage ≠ .probe) (hphase : t.phase = if r = .ok then .idle else .offline)
      (hpc : t.pc = SeqPc.outside) (hclaim : t.claimCnt = 0#8) (hdirty : t.dirty = if r = .ok then false else u.dirty)
      (hfw : t.fwver = u.fwver)
  | commitEnds (hr : u.pc.routine = .commit) (hw : u.pc.wait ≠ .none) (hphase : t.phase = .idle)
      (hpc : t.pc = SeqPc.outside) (hclaim : t.claimCnt = u.claimCnt) (hfw : t.fwver = u.fwver)

theorem Exchange.waited {u v : State} {r : ResultCode} (h : Exchange u r v) : u.pc.wait ≠ .none := by
  rcases h.waiting with h | h <;> simp [h]

/-- What follows an exchange inside a routine and writes none of these registers leaves them. -/
theorem Exchange.goesOn {u v t : State} {r : ResultCode} (hv : Exchange u r v) (hr : u.pc.routine ≠ .none)
    (hphase : t.phase = v.phase) (hclaim : t.claimCnt = v.claimCnt) (hdirty : t.dirty = v.dirty) : GoesOn u t :=
  ⟨hr, hv.waited, hphase.trans hv.phase, hclaim.trans hv.claimCnt, hdirty.trans hv.dirty⟩

/-- A routine that ends after an exchange. -/
theorem Control.of_commitReturn {u v w t : State} {q r : ResultCode} (hv : Exchange u q v)
    (hw : w.pc.routine = v.pc.routine ∧ w.dirty = v.dirty ∧ w.claimCnt = v.claimCnt ∧ w.fwver = v.fwver)
    (hr : u.pc.routine ≠ .none) (hs : u.pc.stage ≠ .probe) (ht : commitReturn r w = .next t) : Control u t := by
  obtain ⟨hwr, hwd, hwc, hwf⟩ := hw
  have hrt : w.pc.routine = u.pc.routine := by rw [hwr, hv.pc]
  rcases commitReturn_cases (by rwa [hrt]) ht with ⟨hi, rfl⟩ | ⟨hc, rfl⟩
  · exact .initEnds (hrt ▸ hi) hv.waited r (fun _ => hs) rfl rfl rfl (by simp [hwd, hv.dirty])
      (by simp [hwf, hv.fwver])
  · exact .commitEnds (hrt ▸ hc) hv.waited rfl rfl (by simp [hwc, hv.claimCnt]) (by simp [hwf, hv.fwver])

/-- The LED found by the loop is an id of the block (R27, R166). -/
theorem le_two_of_find_ledList {c : Conf} {i k : Nat} (h : (ledList c).find? (fun k => decide (i ≤ k)) = some k) :
    k ≤ 2 := by
  have hk : k ∈ List.range ledCount := List.mem_of_mem_filter (List.mem_of_find?_eq_some h)
  have : k < 3 := List.mem_range.mp hk
  omega

/-- From a legal position, what a move does to the control registers. -/
theorem Move.control {u t : State} (h : Move u t) (hp : Position u) : Control u t := by
  cases h with
  | waits => exact .stays rfl rfl rfl rfl (.inr ⟨rfl, rfl⟩)
  | offline _ => exact .stays rfl rfl rfl rfl (.inr ⟨rfl, rfl⟩)
  | turnedAway _ _ _ => exact .stays rfl rfl rfl rfl (.inr ⟨rfl, rfl⟩)
  | cleanCommit _ _ _ => exact .stays rfl rfl rfl rfl (.inr ⟨rfl, rfl⟩)
  | acquires h _ => exact .stays rfl rfl rfl rfl (.inl h)
  | releases h _ => exact .stays rfl rfl rfl rfl (.inl h)
  | setsLed h _ _ _ _ _ _ => exact .stays (by simp) (by simp) (by simp) (by simp) (.inl h)
  | setsFreq h _ _ _ => exact .stays rfl rfl rfl rfl (.inl h)
  | setsX h _ _ _ => exact .stays rfl rfl rfl rfl (.inl h)
  | setsY h _ _ _ => exact .stays rfl rfl rfl rfl (.inl h)
  | commits h hc _ _ => exact .commits h (by simpa [claimed] using hc) rfl rfl rfl rfl
  | starts h => exact .starts h (by simp) (by simp [h, SeqPc.entry]) (by simp) (by simp) (by simp) (by simp)
  | sendsCur hr hw he _ _ _ _ => exact absurd (hp.eq_entry hr hw) he
  | written hr hw => exact .reads ⟨hr, by simp [hw], rfl, rfl, rfl⟩ rfl (by simp) rfl rfl rfl
  | rereads hr hw ha => exact .reads ⟨hr, by simp [hw], rfl, rfl, rfl⟩ rfl (by simp; omega) rfl rfl rfl
  | wakes hr hw =>
    exact .wakes ⟨hr, by simp [hw], by simp, by simp, by simp⟩ hw (by simp) (by simp) (by simp) (by simp)
  | sleeps hr hs ha _ _ hv =>
    exact .sleeps (hv.goesOn hr rfl rfl rfl) hs (by simp [hv.pc]) (by simp [hv.micro]) ha (by simp [hv.fwver])
  | probeEnds hr hs _ _ v _ hv ht =>
    cases eq_of_initFinish ht
    exact .initEnds (hp.routine_of_probe hs) hv.waited .deviceNotResponding (by simp) rfl rfl rfl
      (by simp [hv.dirty]) (by simp [hv.fwver])
  | probed hr hs hw b hb h8 =>
    have hv := Exchange.response hw b hb
    exact .probed (hv.goesOn hr (by simp) (by simp) (by simp)) hs (by simp) (by simpa using h8)
  | nextLed hr _ _ h hk _ hv =>
    exact .toLed (hv.goesOn hr (by simp) (by simp) (by simp)) (h.imp And.left And.left) (by simp [hv.pc])
      (by simpa using le_two_of_find_ledList hk) (by simp [hv.fwver])
  | toFreq hr _ h _ _ _ _ hv =>
    exact .toFreq (hv.goesOn hr (by simp) (by simp) (by simp)) (h.imp And.left And.left) (by simp [hv.pc])
      (by simp) (by simp [hv.fwver])
  | badFreq hr _ h _ _ _ _ hv ht =>
    exact .of_commitReturn hv (by simp) hr (by rcases h with ⟨h, _⟩ | ⟨h, _⟩ <;> simp [h]) ht
  | ends hr _ h _ _ hv ht =>
    exact .of_commitReturn hv (by simp) hr (by rcases h with h | ⟨h | h, _⟩ <;> simp [h]) ht
  | nowhere hr hs _ _ _ => exact absurd hs (hp.stage_ne_absent hr)

end Sys2Proof.Machine
end

section
/-! Statements about every step that follow from how a move ends: the trace, RESULT and TX (R31, R34, R36, R60). -/

namespace Sys2Proof.Machine

open Sys2Proof.Safety

/-! ## From a move to a step -/

/-- A step that answers is a RESET or one move. -/
theorem step_next_cases {s t : State} (h : step s = .next t) :
    (∃ gen thumb rest, s.env.host = .reset gen thumb :: rest ∧ t = applyReset gen thumb (dropHostMove s)) ∨
      ∃ e, Move (withEnv s e) t := by
  rcases step_cases s with ⟨gen, thumb, rest, hh, ht⟩ | ⟨e, t', ht, hm⟩ | ⟨_, _, _, why, ht⟩
  · rw [h] at ht
    exact .inl ⟨gen, thumb, rest, hh, Host.Outcome.next.inj ht⟩
  · rw [h] at ht
    cases Host.Outcome.next.inj ht
    exact .inr ⟨e, hm⟩
  · rw [h] at ht
    cases ht

/-- Without a RESET it is one move. -/
theorem move_of_step {s t : State} (hn : noReset s = true) (h : step s = .next t) : ∃ e, Move (withEnv s e) t := by
  refine (step_next_cases h).resolve_left ?_
  rintro ⟨gen, thumb, rest, hh, -⟩
  simp [noReset, hh] at hn

/-- The tapes play no part in an ending. -/
theorem Ending.of_withEnv {s t : State} {e : Env} {logs : List Event} (h : Ending (withEnv s e) t logs) :
    Ending s t logs := by
  cases h with
  | still htr hres htx hpc hcur hlogs => exact .still htr hres htx hpc hcur hlogs
  | writes f htr hres htx hwait hcur => exact .writes f htr hres htx hwait hcur
  | reads htr hres htx hwait => exact .reads htr hres htx hwait
  | sleeps htr hres htx hwait => exact .sleeps htr hres htx hwait
  | completes r htr hres htx hpc => exact .completes r htr hres htx hpc

/-- A step that is no RESET has an ending. -/
theorem ending_of_step {s t : State} (hn : noReset s = true) (h : step s = .next t) :
    ∃ logs, IsLogs logs ∧ Ending s t logs := by
  obtain ⟨e, hm⟩ := move_of_step hn h
  obtain ⟨logs, hl, hend⟩ := hm.ending
  exact ⟨logs, hl, hend.of_withEnv⟩

/-! ## The trace, RESULT and TX -/

/-- Settles O45: every ending appends. -/
theorem traceIsAppendOnly : Obligations.TraceIsAppendOnly := by
  refine ⟨rfl, fun s t hn h => ?_⟩
  obtain ⟨logs, _, hend⟩ := ending_of_step hn h
  cases hend with
  | still htr => exact ⟨_, htr⟩
  | writes f htr => exact ⟨_, by rw [htr, List.append_assoc]⟩
  | reads htr => exact ⟨_, by rw [htr, List.append_assoc]⟩
  | sleeps htr => exact ⟨_, by rw [htr, List.append_assoc]⟩
  | completes r htr => exact ⟨_, by rw [htr, List.append_assoc]⟩

/-- Settles O46: of the endings only the completion appends a Done, and it alone writes RESULT. -/
theorem resultIsWrittenAtCompletionOnly : Obligations.ResultIsWrittenAtCompletionOnly := by
  refine ⟨rfl, fun s t hn h => ?_⟩
  obtain ⟨logs, hl, hend⟩ := ending_of_step hn h
  have request : ∀ e : Event, (∀ r, e ≠ .done r) → t.trace = s.trace ++ logs ++ [e] →
      ∃ es, t.trace = s.trace ++ es ∧ ∀ r, .done r ∉ es := by
    intro e he htr
    refine ⟨logs ++ [e], by rw [htr, List.append_assoc], fun r hr => ?_⟩
    rcases List.mem_append.mp hr with hr | hr
    · exact hl.done_not_mem r hr
    · exact he r (List.mem_singleton.mp hr).symm
  cases hend with
  | still htr hres => exact .inl ⟨hres, logs, htr, hl.done_not_mem⟩
  | writes f htr hres => exact .inl ⟨hres, request _ (by simp) htr⟩
  | reads htr hres => exact .inl ⟨hres, request _ (by simp) htr⟩
  | sleeps htr hres => exact .inl ⟨hres, request _ (by simp) htr⟩
  | completes r htr hres => exact .inr ⟨logs, r, htr, hl.done_not_mem, hres⟩

theorem framesWritten_append (es fs : List Event) :
    framesWritten (es ++ fs) = framesWritten es ++ framesWritten fs := by
  induction es with
  | nil => rfl
  | cons e es ih => cases e <;> simp [framesWritten, ih]

theorem IsLogs.framesWritten {logs : List Event} (h : IsLogs logs) : framesWritten logs = [] := by
  rcases h with rfl | ⟨f, rfl⟩
  · rfl
  · rw [responseLogs, framesWritten_append]
    split <;> split <;> rfl

/-- Where the frames written and TX stay, TX still holds the last of them. -/
theorem txHoldsLastFrame_congr {s t : State} (hf : framesWritten t.trace = framesWritten s.trace) (htx : t.tx = s.tx)
    (h : txHoldsLastFrame s) : txHoldsLastFrame t := by
  have hp : ∀ a, peek t .tx a = peek s .tx a := fun a => congrArg (Memory.readByte · a) htx
  unfold txHoldsLastFrame at h ⊢
  simpa only [hf, hp] using h

/-- A send puts the frame it writes in TX, whatever was there (R129). -/
theorem txHoldsLastFrame_of_written {t : State} {m : Memory} {f : Frame} {fs : List Frame}
    (hf : framesWritten t.trace = fs ++ [f]) (htx : t.tx = Memory.writeBytes m 0 f.bytes) : txHoldsLastFrame t := by
  unfold txHoldsLastFrame
  rw [hf, List.getLast?_concat]
  intro a ha
  have hr := Memory.readByte_writeBytes f.bytes m 0 a
  rw [if_pos ⟨Nat.zero_le _, by rw [f.len]; simpa using ha⟩, Nat.sub_zero, bytes_getElem? f ha] at hr
  exact (congrArg (Memory.readByte · a) htx).trans hr

/-- Settles O43: an ending either writes one frame and TX with it, or neither. -/
theorem txHoldsTheLastFrameWritten : Obligations.TxHoldsTheLastFrameWritten := by
  intro s t hs h
  rcases step_next_cases h with ⟨gen, thumb, rest, _, rfl⟩ | ⟨e, hm⟩
  · exact fun _ => rfl
  · obtain ⟨logs, hl, hend⟩ := hm.ending
    have hend := hend.of_withEnv
    have frames : ∀ e, framesWritten (s.trace ++ logs ++ [e]) = framesWritten s.trace ++ framesWritten [e] := by
      intro e
      rw [framesWritten_append, framesWritten_append, hl.framesWritten, List.append_nil]
    cases hend with
    | still htr _ htx =>
      exact txHoldsLastFrame_congr (by rw [htr, framesWritten_append, hl.framesWritten, List.append_nil]) htx hs
    | writes f htr _ htx => exact txHoldsLastFrame_of_written (by rw [htr, frames]; rfl) htx
    | reads htr _ htx => exact txHoldsLastFrame_congr (by rw [htr, frames]; exact List.append_nil _) htx hs
    | sleeps htr _ htx => exact txHoldsLastFrame_congr (by rw [htr, frames]; exact List.append_nil _) htx hs
    | completes r htr _ htx => exact txHoldsLastFrame_congr (by rw [htr, frames]; exact List.append_nil _) htx hs

/-- Settles O42: the last event of an ending is the one the wait it leaves asks for. -/
theorem theOutstandingRequestIsTheLastEvent : Obligations.TheOutstandingRequestIsTheLastEvent := by
  intro s t hp hs h
  have pos := position_of_positionOk hp
  rcases step_next_cases h with ⟨gen, thumb, rest, _, rfl⟩ | ⟨e, hm⟩
  · rfl
  · obtain ⟨logs, _, hend⟩ := hm.ending
    cases hend.of_withEnv with
    | still htr hres _ hpc hcur hlogs =>
      have hnil : logs = [] := hlogs.resolve_right fun ⟨hr, ha⟩ => pos.stage_ne_absent hr ha
      rw [hnil, List.append_nil] at htr
      simpa only [lastEventOk, htr, hres, hpc, hcur] using hs
    | writes f htr _ _ hwait hcur => simp [lastEventOk, htr, hwait, hcur]
    | reads htr _ _ hwait => simp [lastEventOk, htr, hwait]
    | sleeps htr _ _ hwait => simp [lastEventOk, htr, hwait]
    | completes r htr hres _ hpc =>
      have hout : t.pc = SeqPc.outside := by
        rcases hpc with hpc | ⟨hpc, hready⟩
        · exact hpc
        · exact hpc.trans (pos.pc_of_ready hready)
      simp [lastEventOk, htr, hres, hout, SeqPc.outside]

end Sys2Proof.Machine
end

section
/-! Progress, PHASE and the position, the registers reset alone loads, and the register map (R20, R24, R25, R27, R37). -/

namespace Sys2Proof.Machine

open Sys2Proof.Safety

/-! ## Progress and PHASE -/

/-- Settles O38: the one refusal of `step_cases` is at a position no legal state has. -/
theorem noStepStopsWhereThePositionIsLegal : Obligations.NoStepStopsWhereThePositionIsLegal := by
  constructor
  · intro s hp
    rcases step_cases s with ⟨_, _, _, _, ht⟩ | ⟨_, t, ht, _⟩ | ⟨hr, hw, he, _⟩
    · exact ⟨_, ht⟩
    · exact ⟨t, ht⟩
    · exact absurd ((position_of_positionOk hp).eq_entry hr hw) he
  · intro s r h
    rcases step_cases s with ⟨_, _, _, _, ht⟩ | ⟨_, _, ht, _⟩ | ⟨_, _, _, _, ht⟩ <;> rw [h] at ht <;> cases ht

/-- A routine that goes on at one of its stages, and waits again, stays at a legal position. -/
theorem GoesOn.position {u t : State} (g : GoesOn u t) (hp : Position u) {st : Stage} {w : Wait}
    (hpc : t.pc = { u.pc with stage := st, wait := w })
    (hst : st = u.pc.stage ∨ st = .res ∨ st = .led ∨ st = .freq)
    (hw : w = .write ∨ w = .read ∨ (w = .sleep ∧ st = .probe)) : Position t := by
  have hroutine : t.pc.routine = u.pc.routine := by rw [hpc]
  have hstage : t.pc.stage = st := by rw [hpc]
  have hwait : t.pc.wait = w := by rw [hpc]
  have hlisted : st ≠ .absent := by
    rcases hst with h | h | h | h
    · rw [h]; exact hp.stage_ne_absent g.running
    all_goals simp [h]
  rcases hp.of_running g.running g.waited with ⟨hph, hr⟩ | ⟨hph, hr, hs, -⟩
  · refine .initializing (g.phase.trans hph) (hroutine.trans hr) (hstage ▸ hlisted) ?_ ?_
    · rcases hw with h | h | ⟨h, -⟩ <;> simp [hwait, h]
    · rcases hw with h | h | ⟨h, hs⟩ <;> simp_all
  · have hprobe : st ≠ .probe := by
      rcases hst with h | h | h | h
      · rwa [h]
      all_goals simp [h]
    refine .committing (g.phase.trans hph) (hroutine.trans hr) ?_ ?_
    · rw [hstage]
      cases st <;> simp_all
    · rw [hwait]
      rcases hw with h | h | ⟨-, h⟩
      · exact .inl h
      · exact .inr h
      · exact absurd h hprobe

/-- Every move keeps the position legal. -/
theorem Control.position {u t : State} (h : Control u t) (hp : Position u) : Position t := by
  cases h with
  | stays hphase hpc =>
    exact position_of_positionOk (by simpa only [positionOk, hphase, hpc] using hp.positionOk)
  | starts h hphase hpc =>
    exact .initializing (hphase.trans (hp.phase_of_init (by rw [h]; rfl))) (by simp [hpc])
      (by simp [hpc]) (by simp [hpc]) (by simp [hpc])
  | commits _ _ hphase hpc => exact .committing hphase (by rw [hpc]) (by simp [hpc]) (by simp [hpc])
  | reads g hpc => exact g.position hp hpc (.inl rfl) (.inr (.inl rfl))
  | sleeps g hs hpc => exact g.position hp hpc (.inl rfl) (.inr (.inr ⟨rfl, hs⟩))
  | wakes g _ hpc => exact g.position hp hpc (.inl rfl) (.inl rfl)
  | probed g _ hpc => exact g.position hp hpc (.inr (.inl rfl)) (.inl rfl)
  | toLed g _ hpc => exact g.position hp hpc (.inr (.inr (.inl rfl))) (.inl rfl)
  | toFreq g _ hpc => exact g.position hp hpc (.inr (.inr (.inr rfl))) (.inl rfl)
  | initEnds _ _ r _ hphase hpc =>
    refine .ready ?_ hpc
    rw [hphase]
    split
    · exact .inl rfl
    · exact .inr rfl
  | commitEnds _ _ hphase hpc => exact .ready (.inl hphase) hpc

/-- R32: no routine exactly in IDLE and OFFLINE. -/
theorem Position.routine_eq_none_iff {s : State} (h : Position s) :
    s.pc.routine = .none ↔ s.phase = .idle ∨ s.phase = .offline := by
  cases h with
  | ready hphase hpc => simp [hphase, hpc, SeqPc.outside]
  | atReset hphase hpc => simp [hphase, hpc, SeqPc.entry]
  | initializing hphase hr => simp [hphase, hr]
  | committing hphase hr => simp [hphase, hr]

/-- R20: PHASE moves only as listed. -/
theorem Control.phase_cases {u t : State} (h : Control u t) (hp : Position u) :
    t.phase = u.phase ∨ (u.phase = .init ∧ (t.phase = .idle ∨ t.phase = .offline)) ∨
      (u.phase = .idle ∧ t.phase = .busy) ∨ (u.phase = .busy ∧ t.phase = .idle) := by
  cases h with
  | stays hphase => exact .inl hphase
  | starts _ hphase => exact .inl hphase
  | commits h _ hphase => exact .inr (.inr (.inl ⟨h, hphase⟩))
  | reads g => exact .inl g.phase
  | sleeps g => exact .inl g.phase
  | wakes g => exact .inl g.phase
  | probed g => exact .inl g.phase
  | toLed g => exact .inl g.phase
  | toFreq g => exact .inl g.phase
  | initEnds hr hw r _ hphase =>
    refine .inr (.inl ⟨hp.phase_of_init hr, ?_⟩)
    rw [hphase]
    split
    · exact .inl rfl
    · exact .inr rfl
  | commitEnds hr _ hphase => exact .inr (.inr (.inr ⟨hp.phase_of_commit hr, hphase⟩))

/-- Settles O39: both halves are read off the position and the control registers. -/
theorem phaseMovesOnlyAsListed : Obligations.PhaseMovesOnlyAsListed := by
  intro s t hp hn h
  obtain ⟨e, hm⟩ := move_of_step hn h
  have pos : Position (withEnv s e) := position_of_positionOk hp
  have hc := hm.control pos
  exact ⟨(hc.position pos).routine_eq_none_iff, hc.phase_cases pos⟩

/-! ## VARIANT, THUMB_PRESENT and the LEDs -/

theorem ledOf_eq_ledState (c : Conf) {k : Nat} (h : k ≤ 2) : ledOf c k = ledState c k := by
  obtain rfl | rfl | rfl : k = 0 ∨ k = 1 ∨ k = 2 := by omega
  all_goals rfl

/-- No move writes VARIANT (R24). -/
theorem Move.variant {u t : State} (h : Move u t) : t.conf.variant = u.conf.variant := by
  rcases h.conf_cases with hc | ⟨-, ⟨i, c, hi, -, -, hc⟩ | ⟨c, -, hc⟩ | ⟨k, -, hc⟩ | ⟨k, -, hc⟩⟩ <;> rw [hc]
  obtain ⟨-, -, -, -, -, hvariant⟩ := setLedState_conf i c u hi
  exact hvariant

theorem statusByte_variant (s : State) : (statusByte s).getLsbD 4 = decide (s.conf.variant = .extended) := by
  simp only [statusByte, BitVec.getLsbD_append]
  cases s.conf.variant <;> rfl

theorem statusByte_thumbPresent (s : State) : (statusByte s).getLsbD 5 = s.thumbPresent := by
  simp only [statusByte, BitVec.getLsbD_append]
  cases s.thumbPresent <;> rfl

/-- Settles O47: no move writes the two inputs, and STATUS shows what a RESET loaded. -/
theorem variantIsWrittenByResetOnly : Obligations.VariantIsWrittenByResetOnly := by
  constructor
  · intro s t hn h
    obtain ⟨e, hm⟩ := move_of_step hn h
    exact ⟨hm.variant, hm.keeps.thumbPresent, hm.keeps.params⟩
  · intro s gen thumb rest hh
    refine ⟨applyReset gen thumb (dropHostMove s), ?_, rfl, rfl, statusByte_variant _, statusByte_thumbPresent _⟩
    simp only [step, machineStep, hh]

/-- A write of Off or On to a supported LED makes no LED Unsupported and none supported (R27, R195). -/
theorem ledState_setLedState_unsupported_iff {u : State} {i : Nat} {c : BitVec 2} (hi : i < 3)
    (hs : ledState u.conf i ≠ ledUnsupported) (hv : c = ledOff ∨ c = ledOn) (k : Nat) :
    ledState (setLedState i c u).conf k = ledUnsupported ↔ ledState u.conf k = ledUnsupported := by
  obtain ⟨hwritten, hothers, -⟩ := setLedState_conf i c u hi
  by_cases hk : k = i
  · subst hk
    rw [hwritten]
    have hc : c ≠ ledUnsupported := by rcases hv with rfl | rfl <;> decide
    exact iff_of_false hc hs
  · rw [hothers k hk]

/-- Settles O49: of the setters only SETLED writes an LED. -/
theorem unsupportedLedsStayUnsupported : Obligations.UnsupportedLedsStayUnsupported := by
  intro s t hn h k hk
  obtain ⟨e, hm⟩ := move_of_step hn h
  rcases hm.conf_cases with hc | ⟨-, ⟨i, c, hi, hs, hv, hc⟩ | ⟨c, -, hc⟩ | ⟨x, -, hc⟩ | ⟨y, -, hc⟩⟩ <;> rw [hc]
  case inr.inl =>
    rw [ledOf_eq_ledState _ hk, ledOf_eq_ledState _ hk]
    exact ledState_setLedState_unsupported_iff hi hs hv k
  all_goals exact Iff.rfl

/-! ## The register map -/

/-- A concatenation reads as its two parts side by side. -/
theorem toNat_append_eq_add {m n : Nat} (x : BitVec m) (y : BitVec n) :
    (x ++ y).toNat = x.toNat * 2 ^ n + y.toNat := by
  rw [BitVec.toNat_append, ← Nat.shiftLeft_add_eq_or_of_lt y.isLt, Nat.shiftLeft_eq]

/-- STATUS by its bits (R37). -/
theorem statusByte_toNat (s : State) :
    (statusByte s).toNat =
      (match s.phase with | .init => 0 | .idle => 1 | .busy => 2 | .offline => 3) + (if s.dirty then 4 else 0) +
        (if s.claimCnt = 0#8 then 0 else 8) + (match s.conf.variant with | .legacy => 0 | .extended => 16) +
        (if s.thumbPresent then 32 else 0) := by
  have hphase : (phaseCode s.phase).toNat =
      match s.phase with | .init => 0 | .idle => 1 | .busy => 2 | .offline => 3 := by
    cases s.phase <;> rfl
  have hvariant : (variantCode s.conf.variant).toNat * 16 =
      match s.conf.variant with | .legacy => 0 | .extended => 16 := by
    cases s.conf.variant <;> rfl
  have hclaimed : (claimed s).toNat * 8 = if s.claimCnt = 0#8 then 0 else 8 := by
    by_cases h : s.claimCnt = 0#8 <;> simp [claimed, h]
  have hdirty : s.dirty.toNat * 4 = if s.dirty then 4 else 0 := by cases s.dirty <;> rfl
  have hthumb : s.thumbPresent.toNat * 32 = if s.thumbPresent then 32 else 0 := by cases s.thumbPresent <;> rfl
  simp only [statusByte, toNat_append_eq_add, BitVec.toNat_ofBool]
  rw [← hphase, ← hvariant, ← hclaimed, ← hdirty, ← hthumb, BitVec.toNat_ofNat]
  omega

/-- LEDLIST by its bits (R200). -/
theorem ledListByte_toNat (c : Conf) :
    (ledListByte c).toNat =
      (if c.led0 = 0#2 then 0 else 1) + (if c.led1 = 0#2 then 0 else 2) + (if c.led2 = 0#2 then 0 else 4) := by
  have bit : ∀ x : BitVec 2, (x != 0#2).toNat = if x = 0#2 then 0 else 1 := by decide
  simp only [ledListByte, ledListBit, ledState, ledUnsupported, toNat_append_eq_add, BitVec.toNat_ofBool, bit]
  split <;> split <;> split <;> rfl

/-- The 16-bit version is its two bytes side by side (R30). -/
theorem hi8_lo8_toNat (v : BitVec 16) : (hi8 v).toNat * 256 + (lo8 v).toNat = v.toNat := by
  rw [← be16_toNat, be16_hi8_lo8]

/-- Addresses past LEDLIST read 0 (R37). -/
theorem regRead_reserved {a : Byte} (h : 0x0C ≤ a.toNat) (s : State) : regRead a s = 0#8 := by
  unfold regRead
  split
  on_goal 13 => rfl
  all_goals omega

/-- Settles O56: the two composed bytes by their bits, the others by their width. -/
theorem registerMapReadsTheFields : Obligations.RegisterMapReadsTheFields := fun s =>
  ⟨statusByte_toNat s, rfl, rfl, rfl, BitVec.toNat_setWidth_of_le (by decide), BitVec.toNat_setWidth_of_le (by decide),
    BitVec.toNat_setWidth_of_le (by decide), BitVec.toNat_setWidth_of_le (by decide),
    BitVec.toNat_setWidth_of_le (by decide),
    hi8_lo8_toNat s.fwver, ledListByte_toNat s.conf, fun _ h => regRead_reserved h s⟩

end Sys2Proof.Machine
end

section
/-! The state invariant `inv`: each part as a proposition, kept by what a move does to its registers (R20 to R33, R50). -/

namespace Sys2Proof.Machine

open Sys2Proof.Safety

/-! ## The state invariant, part by part -/

/-- `countersOk` as what each counter may be where it is valid (R33). -/
structure Counters (s : State) : Prop where
  probing : s.pc.stage = .probe → s.pc.wait ≠ .none → 1 ≤ s.micro.pattempt ∧ s.micro.pattempt ≤ 5
  sleeping : s.pc.wait = .sleep → s.micro.pattempt ≤ 4
  reading : s.pc.wait = .read → 1 ≤ s.micro.rattempt ∧ s.micro.rattempt ≤ 3
  atLed : s.pc.stage = .led → s.micro.led ≤ 2
  atFreq : s.pc.stage = .freq → s.micro.led = 3

theorem countersOk_iff (s : State) : countersOk s = true ↔ Counters s := by
  simp only [countersOk, Bool.and_eq_true, Bool.or_eq_true, bne_iff_ne, beq_iff_eq, decide_eq_true_eq]
  constructor
  · rintro ⟨⟨⟨⟨h1, h2⟩, h3⟩, h4⟩, h5⟩
    constructor <;> grind
  · rintro ⟨h1, h2, h3, h4, h5⟩
    grind

/-- The counters stay in their ranges: an attempt is counted only where the last one could still fail (R33, R127). -/
theorem Control.counters {u t : State} (h : Control u t) (hc : Counters u) : Counters t := by
  obtain ⟨h1, h2, h3, h4, h5⟩ := hc
  cases h with
  | stays _ hpc hmicro => constructor <;> simpa only [hpc, hmicro]
  | starts _ _ hpc hattempt => constructor <;> simp [hpc, hattempt]
  | commits _ _ _ hpc => constructor <;> simp [hpc]
  | reads g hpc hattempt hp hl => have := g.waited; constructor <;> grind
  | sleeps g hs hpc hp hlt => have := g.waited; constructor <;> grind
  | wakes g hw hpc hp hl => constructor <;> grind
  | probed _ _ hpc => constructor <;> simp [hpc]
  | toLed _ _ hpc hl => constructor <;> simp [hpc, hl]
  | toFreq _ _ hpc hl => constructor <;> simp [hpc, hl]
  | initEnds _ _ _ _ _ hpc => constructor <;> simp [hpc, SeqPc.outside]
  | commitEnds _ _ _ hpc => constructor <;> simp [hpc, SeqPc.outside]

/-- `claimOk` as what CLAIM_CNT may be in each PHASE (R23, R170, R171, R241). -/
structure Claim (s : State) : Prop where
  atReset : s.phase = .init → s.pc = SeqPc.entry → s.claimCnt = 0#8
  initializing : s.phase = .init → s.pc ≠ SeqPc.entry → s.claimCnt = 1#8
  offline : s.phase = .offline → s.claimCnt = 0#8
  busy : s.phase = .busy → s.claimCnt ≠ 0#8

theorem claimOk_iff (s : State) : claimOk s = true ↔ Claim s := by
  unfold claimOk
  cases hp : s.phase with
  | init =>
    by_cases he : s.pc = SeqPc.entry
    · simp only [he, beq_self_eq_true, if_true, beq_iff_eq]
      exact ⟨fun h => ⟨fun _ _ => h, by simp [he], by simp [hp], by simp [hp]⟩, fun h => h.atReset hp he⟩
    · simp only [beq_iff_eq, he, if_false]
      exact ⟨fun h => ⟨by simp [he], fun _ _ => h, by simp [hp], by simp [hp]⟩, fun h => h.initializing hp he⟩
  | idle => exact ⟨fun _ => by constructor <;> simp [hp], fun _ => rfl⟩
  | busy => exact ⟨fun h => ⟨by simp [hp], by simp [hp], by simp [hp], fun _ => by simpa using h⟩,
      fun h => by simpa using h.busy hp⟩
  | offline => exact ⟨fun h => ⟨by simp [hp], by simp [hp], fun _ => by simpa using h, by simp [hp]⟩,
      fun h => by simpa using h.offline hp⟩

theorem pc_ne_entry_of_wait {s : State} (h : s.pc.wait ≠ .none) : s.pc ≠ SeqPc.entry := by
  intro he
  rw [he] at h
  exact h rfl

/-- A routine that goes on and waits again keeps its claim. -/
theorem GoesOn.claim {u t : State} (g : GoesOn u t) (hc : Claim u) (hw : t.pc.wait ≠ .none) : Claim t := by
  have hu := pc_ne_entry_of_wait g.waited
  have ht := pc_ne_entry_of_wait hw
  obtain ⟨-, hinit, hoff, hbusy⟩ := hc
  rw [← g.phase, ← g.claimCnt] at hinit hoff hbusy
  exact ⟨fun _ he => absurd he ht, fun hp _ => hinit hp hu, hoff, hbusy⟩

/-- The claim of initialization is taken at its start and released at its end; a COMMIT keeps its own (R170, R198). -/
theorem Control.claim {u t : State} (h : Control u t) (hp : Position u) (hc : Claim u) : Claim t := by
  cases h with
  | stays hphase hpc _ _ hport =>
    rcases hport with hidle | ⟨hclaim, -⟩
    · constructor <;> simp [hphase, hidle]
    · obtain ⟨h1, h2, h3, h4⟩ := hc
      constructor <;> simpa only [hphase, hpc, hclaim]
  | starts he hphase hpc _ hclaim =>
    have hinit := hphase.trans (hp.phase_of_init (by rw [he]; rfl))
    constructor <;> simp [hinit, hpc, hclaim, SeqPc.entry]
  | commits _ hclaimed hphase _ hclaim => constructor <;> simp [hphase, hclaim, hclaimed]
  | reads g hpc => exact g.claim hc (by simp [hpc])
  | sleeps g _ hpc => exact g.claim hc (by simp [hpc])
  | wakes g _ hpc => exact g.claim hc (by simp [hpc])
  | probed g _ hpc => exact g.claim hc (by simp [hpc])
  | toLed g _ hpc => exact g.claim hc (by simp [hpc])
  | toFreq g _ hpc => exact g.claim hc (by simp [hpc])
  | initEnds _ _ r _ hphase _ hclaim => by_cases hr : r = .ok <;> constructor <;> simp [hphase, hr, hclaim]
  | commitEnds _ _ hphase => constructor <;> simp [hphase]

/-- `dirtyOk`: DIRTY stays 1 until an initialization has succeeded (R22, R171). -/
theorem dirtyOk_iff (s : State) : dirtyOk s = true ↔ (s.phase = .init ∨ s.phase = .offline → s.dirty = true) := by
  unfold dirtyOk
  cases s.phase <;> simp

theorem GoesOn.dirtyOk {u t : State} (g : GoesOn u t) (hd : dirtyOk u = true) : dirtyOk t = true := by
  simpa only [dirtyOk_iff, g.phase, g.dirty] using hd

/-- Initialization clears DIRTY only where it succeeds (R171, R172). -/
theorem Control.dirtyOk {u t : State} (h : Control u t) (hp : Position u) (hd : dirtyOk u = true) :
    dirtyOk t = true := by
  cases h with
  | stays hphase _ _ _ hport =>
    rcases hport with hidle | ⟨-, hdirty⟩
    · simp [dirtyOk_iff, hphase, hidle]
    · simpa only [dirtyOk_iff, hphase, hdirty] using hd
  | starts _ hphase _ _ _ hdirty => simpa only [dirtyOk_iff, hphase, hdirty] using hd
  | commits _ _ hphase => simp [dirtyOk_iff, hphase]
  | reads g => exact g.dirtyOk hd
  | sleeps g => exact g.dirtyOk hd
  | wakes g => exact g.dirtyOk hd
  | probed g => exact g.dirtyOk hd
  | toLed g => exact g.dirtyOk hd
  | toFreq g => exact g.dirtyOk hd
  | initEnds hr _ r _ hphase _ _ hdirty =>
    have hu : u.dirty = true := (dirtyOk_iff u).mp hd (.inl (hp.phase_of_init hr))
    by_cases hok : r = .ok <;> simp [dirtyOk_iff, hphase, hdirty, hok, hu]
  | commitEnds _ _ hphase => simp [dirtyOk_iff, hphase]

/-- The probe of the running power cycle is over with success (R161). -/
def ProbeOver (s : State) : Prop := s.phase = .idle ∨ s.phase = .busy ∨ (s.phase = .init ∧ s.pc.stage ≠ .probe)

/-- `versionOk`: FWVER is 0 or a version with a high byte, and the latter once the probe is over (R30, R161). -/
theorem versionOk_iff (s : State) :
    versionOk s = true ↔ (s.fwver = 0#16 ∨ hi8 s.fwver ≠ 0#8) ∧ (ProbeOver s → hi8 s.fwver ≠ 0#8) := by
  unfold versionOk ProbeOver
  cases s.phase <;> simp [or_iff_not_imp_left]

/-- FWVER stays, and the probe was over already if it is now. -/
theorem versionOk_congr {u t : State} (hv : versionOk u = true) (hfw : t.fwver = u.fwver)
    (h : ProbeOver t → ProbeOver u) : versionOk t = true := by
  rw [versionOk_iff] at hv ⊢
  rw [hfw]
  exact ⟨hv.1, fun ht => hv.2 (h ht)⟩

/-- A routine that goes on from a stage after the probe, or at its stage, is past the probe only if it was. -/
theorem GoesOn.probeOver {u t : State} (g : GoesOn u t) (hs : u.pc.stage ≠ .probe ∨ t.pc.stage = u.pc.stage)
    (ht : ProbeOver t) : ProbeOver u := by
  unfold ProbeOver at ht ⊢
  rw [g.phase] at ht
  refine ht.imp_right (Or.imp_right fun ⟨hp, hst⟩ => ⟨hp, ?_⟩)
  rcases hs with hs | hs
  · exact hs
  · rwa [hs] at hst

/-- Only a response with a high byte takes the sequencer past the probe (R161, R162). -/
theorem Control.versionOk {u t : State} (h : Control u t) (hp : Position u) (hv : versionOk u = true) :
    versionOk t = true := by
  cases h with
  | stays hphase hpc _ hfw => exact versionOk_congr hv hfw (by unfold ProbeOver; rw [hphase, hpc]; exact id)
  | starts he hphase hpc _ _ _ hfw =>
    have hinit := hphase.trans (hp.phase_of_init (by rw [he]; rfl))
    exact versionOk_congr hv hfw (by simp [ProbeOver, hinit, hpc])
  | commits hidle _ _ _ _ hfw => exact versionOk_congr hv hfw fun _ => .inl hidle
  | reads g hpc _ _ _ hfw => exact versionOk_congr hv hfw (g.probeOver (.inr (by rw [hpc])))
  | sleeps g _ hpc _ _ hfw => exact versionOk_congr hv hfw (g.probeOver (.inr (by rw [hpc])))
  | wakes g _ hpc _ _ hfw => exact versionOk_congr hv hfw (g.probeOver (.inr (by rw [hpc])))
  | probed _ _ _ hfw => exact (versionOk_iff t).mpr ⟨.inr hfw, fun _ => hfw⟩
  | toLed g hs _ _ hfw => exact versionOk_congr hv hfw (g.probeOver (.inl (by rcases hs with h | h <;> simp [h])))
  | toFreq g hs _ _ hfw => exact versionOk_congr hv hfw (g.probeOver (.inl (by rcases hs with h | h <;> simp [h])))
  | initEnds hr _ r hs hphase _ _ _ hfw =>
    refine versionOk_congr hv hfw fun ht => .inr (.inr ⟨hp.phase_of_init hr, hs ?_⟩)
    by_contra hok
    simp [ProbeOver, hphase, hok] at ht
  | commitEnds hr _ _ _ _ hfw => exact versionOk_congr hv hfw fun _ => .inr (.inl (hp.phase_of_commit hr))

/-- `confOk` field by field (R26, R27, R29). -/
structure ConfValid (s : State) : Prop where
  freq : s.conf.freq = 1#8 ∨ s.conf.freq = 2#8 ∨ s.conf.freq = 3#8
  led0 : s.conf.led0 = ledOff ∨ s.conf.led0 = ledOn
  led1 : s.conf.led1 = ledOff ∨ s.conf.led1 = ledOn
  led2 : (s.thumbPresent = true ∧ (s.conf.led2 = ledOff ∨ s.conf.led2 = ledOn)) ∨
    (s.thumbPresent = false ∧ s.conf.led2 = ledUnsupported)
  xmap : s.conf.xmap.toNat < tableSize s.conf.variant
  ymap : s.conf.ymap.toNat < tableSize s.conf.variant

theorem confOk_iff (s : State) : confOk s = true ↔ ConfValid s := by
  simp only [confOk, Bool.and_eq_true, Bool.or_eq_true, beq_iff_eq, decide_eq_true_eq, Bool.not_eq_true', or_assoc]
  exact ⟨fun ⟨⟨⟨⟨⟨hf, h0⟩, h1⟩, h2⟩, hx⟩, hy⟩ => ⟨hf, h0, h1, h2, hx, hy⟩,
    fun ⟨hf, h0, h1, h2, hx, hy⟩ => ⟨⟨⟨⟨⟨hf, h0⟩, h1⟩, h2⟩, hx⟩, hy⟩⟩

/-- SETLED keeps CONFIG valid: id 2 is supported only where the thumb-grid is present (R27, R195). -/
theorem ConfValid.setLedState {u : State} (h : ConfValid u) {i : Nat} (hi : i < 3) {c : BitVec 2}
    (hs : ledState u.conf i ≠ ledUnsupported) (hv : c = ledOff ∨ c = ledOn) : ConfValid (setLedState i c u) := by
  obtain ⟨hf, h0, h1, h2, hx, hy⟩ := h
  obtain rfl | rfl | rfl : i = 0 ∨ i = 1 ∨ i = 2 := by omega
  · exact ⟨hf, hv, h1, h2, hx, hy⟩
  · exact ⟨hf, h0, hv, h2, hx, hy⟩
  · rcases h2 with ⟨hth, -⟩ | ⟨-, hun⟩
    · exact ⟨hf, h0, h1, .inl ⟨hth, hv⟩, hx, hy⟩
    · exact absurd hun hs

theorem ConfValid.congr {u t : State} (h : ConfValid u) (hc : t.conf = u.conf) (hth : t.thumbPresent = u.thumbPresent) :
    ConfValid t := by
  obtain ⟨hf, h0, h1, h2, hx, hy⟩ := h
  constructor <;> simpa only [hc, hth]

/-- Each setter writes a value its rule lists (R195, R196, R197). -/
theorem Move.confValid {u t : State} (hm : Move u t) (h : ConfValid u) : ConfValid t := by
  have hth := hm.keeps.thumbPresent
  rcases hm.conf_cases with hc | ⟨-, ⟨i, c, hi, hs, hv, hc⟩ | ⟨c, hv, hc⟩ | ⟨k, hk, hc⟩ | ⟨k, hk, hc⟩⟩
  · exact h.congr hc hth
  · exact (h.setLedState hi hs hv).congr hc (by simpa using hth)
  · have hset : ConfValid (setFreqCode c u) := { h with freq := hv }
    exact hset.congr hc hth
  · have hset : ConfValid (setXmap k u) := { h with xmap := hk }
    exact hset.congr hc hth
  · have hset : ConfValid (setYmap k u) := { h with ymap := hk }
    exact hset.congr hc hth

/-- RESULT is a result code whenever one is written (R230). -/
theorem resultCode_le (r : ResultCode) : (resultCode r).toNat ≤ 6 := by
  cases r <;> decide

theorem Ending.resultOk {u t : State} {logs : List Event} (h : Ending u t logs) (hr : resultOk u = true) :
    resultOk t = true := by
  unfold Safety.resultOk at hr ⊢
  cases h with
  | still _ hres => rwa [hres]
  | writes _ _ hres => rwa [hres]
  | reads _ hres => rwa [hres]
  | sleeps _ hres => rwa [hres]
  | completes r _ hres => rw [hres]; exact decide_eq_true (resultCode_le r)

/-- A whole frame written to a buffer keeps its canonical form (R50). -/
theorem wf_write_whole {m : Memory} (h : m.wf = true) {bs : List Byte} (hb : bs.length = frameLen) :
    (Memory.writeBytes m 0 bs).wf = true :=
  Memory.wf_writeBytes bs h (by rw [hb, Nat.zero_add])

theorem Ending.tx_wf {u t : State} {logs : List Event} (h : Ending u t logs) (hm : u.tx.wf = true) :
    t.tx.wf = true := by
  cases h with
  | still _ _ htx => rwa [htx]
  | writes f _ _ htx => rw [htx]; exact wf_write_whole hm (withChecksum f).len
  | reads _ _ htx => rwa [htx]
  | sleeps _ _ htx => rwa [htx]
  | completes _ _ _ htx => rwa [htx]

theorem Keeps.rx_wf {u t : State} (h : Keeps u t) (hm : u.rx.wf = true) : t.rx.wf = true := by
  rcases h.rx with hrx | ⟨b, hb, hrx⟩ <;> rw [hrx]
  · exact hm
  · exact wf_write_whole hm hb

/-! ## The whole invariant -/

/-- `inv` part by part. -/
structure Invariant (s : State) : Prop where
  position : Position s
  counters : Counters s
  claim : Claim s
  conf : ConfValid s
  dirty : dirtyOk s = true
  version : versionOk s = true
  result : resultOk s = true
  tx : s.tx.wf = true
  rx : s.rx.wf = true

theorem inv_iff (s : State) : inv s = true ↔ Invariant s := by
  simp only [inv, buffersOk, Bool.and_eq_true, countersOk_iff, claimOk_iff, confOk_iff]
  exact ⟨fun ⟨⟨⟨⟨⟨⟨⟨hp, hc⟩, hcl⟩, hcf⟩, hd⟩, hv⟩, hr⟩, htx, hrx⟩ =>
      ⟨position_of_positionOk hp, hc, hcl, hcf, hd, hv, hr, htx, hrx⟩,
    fun ⟨hp, hc, hcl, hcf, hd, hv, hr, htx, hrx⟩ =>
      ⟨⟨⟨⟨⟨⟨⟨hp.positionOk, hc⟩, hcl⟩, hcf⟩, hd⟩, hv⟩, hr⟩, htx, hrx⟩⟩

/-- Every move keeps the invariant. -/
theorem Move.invariant {u t : State} (hm : Move u t) (h : Invariant u) : Invariant t := by
  have hctl := hm.control h.position
  obtain ⟨_, _, hend⟩ := hm.ending
  exact
    { position := hctl.position h.position
      counters := hctl.counters h.counters
      claim := hctl.claim h.position h.claim
      conf := hm.confValid h.conf
      dirty := hctl.dirtyOk h.position h.dirty
      version := hctl.versionOk h.position h.version
      result := hend.resultOk h.result
      tx := hend.tx_wf h.tx
      rx := hm.keeps.rx_wf h.rx }

/-- The state after reset meets the invariant, whatever the two inputs are (R262). -/
theorem inv_afterReset (gen : Variant) (thumb : Bool) (p : Params) (e : Env) :
    inv (State.afterReset gen thumb p e) = true := by
  cases gen <;> cases thumb <;> rfl

/-- Settles O36: a RESET gives a state that meets the invariant, and every move keeps it. -/
theorem everyStepKeepsTheInvariant : Obligations.EveryStepKeepsTheInvariant := by
  intro s t hs h
  rcases step_next_cases h with ⟨gen, thumb, rest, _, rfl⟩ | ⟨e, hm⟩
  · exact inv_afterReset gen thumb _ _
  · have hu : inv (withEnv s e) = true := hs
    exact (inv_iff t).mpr (hm.invariant ((inv_iff _).mp hu))

end Sys2Proof.Machine
end

section
/-! The frame buffers (R34, R50, R51), and the block without a claim (R62, R241). -/

namespace Sys2Proof.Machine

open Sys2Proof.Safety

/-! ## MemRead and MemWrite -/

@[simp] theorem buffer_setBuffer_same (s : State) (b : Buf) (m : Memory) : buffer (setBuffer s b m) b = m := by
  cases b <;> rfl

theorem buffer_setBuffer_other {b c : Buf} (h : c ≠ b) (s : State) (m : Memory) :
    buffer (setBuffer s b m) c = buffer s c := by
  cases b with
  | tx => cases c with
    | tx => exact absurd rfl h
    | rx => rfl
  | rx => cases c with
    | tx => rfl
    | rx => exact absurd rfl h

theorem memWrite_outOfRange {b : Buf} {a : Nat} {v : List Byte} (h : frameLen < a + v.length) (s : State) :
    memWrite b a v s = .outOfRange :=
  if_neg (Nat.not_le.mpr h)

theorem memRead_outOfRange {b : Buf} {a n : Nat} (h : frameLen < a + n) (s : State) :
    memRead b a n s = .outOfRange :=
  if_neg (Nat.not_le.mpr h)

/-- A run of bytes one of which was never written has no value (R34). -/
theorem Memory.readBytes_eq_none {m : Memory} {a n x : Nat} (h1 : a ≤ x) (h2 : x < a + n)
    (hx : Memory.readByte m x = none) : Memory.readBytes m a n = none := by
  cases h : Memory.readBytes m a n with
  | none => rfl
  | some bs =>
    have hi : x - a < n := by omega
    have hget := Memory.readByte_of_readBytes h (x - a) hi
    rw [Nat.add_sub_cancel' h1, hx, eq_comm, List.getElem?_eq_none_iff, Memory.length_of_readBytes h] at hget
    omega

theorem memRead_unwritten {b : Buf} {a n x : Nat} {s : State} (h : a + n ≤ frameLen) (h1 : a ≤ x) (h2 : x < a + n)
    (hx : peek s b x = none) : memRead b a n s = .unwritten := by
  simp only [memRead, if_pos h, Memory.readBytes_eq_none h1 h2 hx]

/-- Settles O9: the laws of MemWrite and MemRead, case by case. -/
theorem bufferReadsGiveWhatWasWritten : Obligations.BufferReadsGiveWhatWasWritten := by
  intro b a v s
  refine ⟨fun h => ?_, fun h => ⟨memWrite_outOfRange h s, memRead_outOfRange h s⟩,
    fun n x h h1 h2 hx => memRead_unwritten h h1 h2 hx⟩
  refine ⟨_, memWrite_ok h, memRead_ok h ?_, fun x hx => ?_, fun c x hc => ?_⟩
  · rw [buffer_setBuffer_same, Memory.readBytes_writeBytes]
  · rw [peek, buffer_setBuffer_same, Memory.readByte_writeBytes, if_neg hx, peek]
  · rw [peek, buffer_setBuffer_other hc, peek]

/-! ## The unclaimed block -/

/-- What an unclaimed idle block can do with the host's move: nothing, or a completion, ACQUIRE's with a claim (R191). -/
theorem Move.cases_of_unclaimed {u t : State} (h : Move u t) (hp : u.phase = .idle) (hpc : u.pc = SeqPc.outside)
    (hc : u.claimCnt = 0#8) : t = u ∨ ∃ r n, t = complete r (setClaims n u) := by
  have hnone : u.pc.routine = .none := by rw [hpc]; rfl
  have hun : claimed u ≠ true := by simp [claimed, hc]
  cases h with
  | waits => exact .inl rfl
  | offline h => simp [hp] at h
  | turnedAway _ r _ => exact .inr ⟨r, u.claimCnt, rfl⟩
  | acquires _ _ => exact .inr ⟨_, _, rfl⟩
  | releases _ h => exact absurd hc h
  | starts h => rw [h] at hpc; cases hpc
  | cleanCommit _ _ h | setsLed _ h | setsFreq _ h | setsX _ h | setsY _ h | commits _ h => exact absurd h hun
  | sendsCur hr | written hr | rereads hr | sleeps hr | wakes hr | probeEnds hr | probed hr | nextLed hr | toFreq hr
  | badFreq hr | ends hr | nowhere hr => exact absurd hnone hr

/-- Settles O50: of the moves an unclaimed idle block can make, none sends, writes a buffer or a register but the claim
and RESULT. -/
theorem unclaimedBlockSendsNothingAndKeepsItsConfiguration :
    Obligations.UnclaimedBlockSendsNothingAndKeepsItsConfiguration := by
  intro s t hp hpos hc hn h
  obtain ⟨e, hm⟩ := move_of_step hn h
  have hpc : s.pc = SeqPc.outside := (position_of_positionOk hpos).pc_of_ready (.inl hp)
  rcases hm.cases_of_unclaimed hp hpc hc with rfl | ⟨r, n, rfl⟩
  · exact ⟨rfl, rfl, hp, fun b a => by cases b <;> rfl, rfl⟩
  · refine ⟨rfl, rfl, hp, fun b a => by cases b <;> rfl, ?_⟩
    rw [complete_trace, framesWritten_append]
    exact List.append_nil _

end Sys2Proof.Machine
end

section
/-! What a step takes from outside: the tape entry that answers the outstanding request, and RX with it (R56, R60). -/

namespace Sys2Proof.Machine

open Sys2Proof.Safety

/-! ## Moves that take nothing from outside -/

/-- RX and the tapes of t are those of u. -/
structure KeepsInputs (u t : State) : Prop where
  rx : t.rx = u.rx
  env : t.env = u.env

theorem keepsInputs_of_next {u v t : State} (h : Host.Outcome.next v = (.next t : Out)) (hv : KeepsInputs u v) :
    KeepsInputs u t :=
  Host.Outcome.next.inj h ▸ hv

theorem keepsInputs_sent (f : Frame) (v : State) : KeepsInputs v (sent f v) := ⟨sent_rx f v, sent_env f v⟩

theorem hostOp_keepsInputs {u t : State} {run : State → Out} (hrun : run u = .next t → KeepsInputs u t)
    (h : hostOp u run = .next t) : KeepsInputs u t := by
  rcases hostOp_cases u run with ⟨_, e⟩ | ⟨_, e⟩ | ⟨_, e⟩ <;> rw [e] at h
  · exact hrun h
  · exact keepsInputs_of_next h ⟨rfl, rfl⟩
  · exact keepsInputs_of_next h ⟨rfl, rfl⟩

/-- No instruction reads RX or takes an answer: a send waits for its answer, and a completion asks for none. -/
theorem exec_keepsInputs {i : Instr} {u t : State} (h : exec i u = .next t) : KeepsInputs u t := by
  have sends : ∀ f, exec i u = .next (sent f u) → KeepsInputs u t := fun f hf =>
    keepsInputs_of_next (hf.symm.trans h) (keepsInputs_sent f u)
  cases i with
  | fwquery => exact sends _ (execFwquery_eq u)
  | ressetLegacy vx vy => exact sends _ (execRessetLegacy_eq vx vy u)
  | ressetExt x y => exact sends _ (execRessetExt_eq x y u)
  | ledset s0 s1 on => exact sends _ (execLedset_eq s0 s1 on u)
  | freqset c => exact sends _ (execFreqset_eq c u)
  | acquire =>
    unfold exec execAcquire at h
    refine hostOp_keepsInputs (fun h => ?_) h
    split at h <;> exact keepsInputs_of_next h ⟨rfl, rfl⟩
  | release =>
    unfold exec execRelease at h
    refine hostOp_keepsInputs (fun h => ?_) h
    split at h <;> exact keepsInputs_of_next h ⟨rfl, rfl⟩
  | setled a b =>
    unfold exec execSetled at h
    refine hostOp_keepsInputs (fun h => ?_) h
    repeat' split at h
    all_goals exact keepsInputs_of_next h ⟨by simp, by simp⟩
  | setfreq a =>
    unfold exec execSetfreq at h
    refine hostOp_keepsInputs (fun h => ?_) h
    repeat' split at h
    all_goals exact keepsInputs_of_next h ⟨rfl, rfl⟩
  | setres a b =>
    unfold exec execSetres at h
    refine hostOp_keepsInputs (fun h => ?_) h
    repeat' split at h
    all_goals exact keepsInputs_of_next h ⟨rfl, rfl⟩
  | commit force =>
    unfold exec execCommit at h
    refine hostOp_keepsInputs (fun h => ?_) h
    rw [commitSeq_eq] at h
    repeat' split at h
    all_goals exact keepsInputs_of_next h ⟨rfl, rfl⟩

theorem takeWord_keepsInputs {w : HostWord} {u t : State} (h : takeWord w u = .next t) : KeepsInputs u t := by
  unfold takeWord at h
  split at h
  · exact exec_keepsInputs h
  · exact hostOp_keepsInputs (run := fun u => .next (complete .illegalOp u)) (keepsInputs_of_next · ⟨rfl, rfl⟩) h

theorem runPosition_keepsInputs {u t : State} (h : runPosition u = .next t) : KeepsInputs u t := by
  unfold runPosition at h
  split at h
  · rw [initStart_eq] at h
    exact keepsInputs_of_next h ⟨rfl, rfl⟩
  · split at h
    · exact exec_keepsInputs h
    · cases h

/-! ## What follows an exchange -/

/-- The last event of a routine's step that leaves the block in t: the next request, or the completion that ends the routine. -/
def SendsOrEnds (e : Event) (t : State) : Prop := isRequest e = true ∨ (isRequest e = false ∧ t.pc = SeqPc.outside)

/-- The routine goes on from v, where an exchange has returned, to t: it takes no further answer, and its one event is the
next request or the completion with which the routine ends. -/
structure Resumes (v t : State) : Prop extends KeepsInputs v t where
  event : ∃ e, t.trace = v.trace ++ [e] ∧ SendsOrEnds e t

/-- Writes of other registers before the event do not matter. -/
theorem Resumes.of_eq {v w t : State} (h : Resumes w t) (hrx : w.rx = v.rx) (henv : w.env = v.env)
    (htr : w.trace = v.trace) : Resumes v t :=
  ⟨⟨h.rx.trans hrx, h.env.trans henv⟩, htr ▸ h.event⟩

theorem resumes_sent (f : Frame) (v : State) : Resumes v (sent f v) :=
  ⟨keepsInputs_sent f v, _, sent_trace f v, .inl rfl⟩

theorem resumes_sleepFor (ms : Nat) (v : State) : Resumes v (sleepFor ms v) :=
  ⟨⟨rfl, rfl⟩, _, rfl, .inl rfl⟩

theorem resumes_initDone (r : ResultCode) (v : State) : Resumes v (initDone r v) :=
  ⟨⟨rfl, rfl⟩, _, rfl, .inr ⟨rfl, rfl⟩⟩

theorem resumes_commitDone (r : ResultCode) (v : State) : Resumes v (commitDone r v) :=
  ⟨⟨rfl, rfl⟩, _, rfl, .inr ⟨rfl, rfl⟩⟩

theorem commitReturn_resumes {r : ResultCode} {v t : State} (hr : v.pc.routine ≠ .none)
    (h : commitReturn r v = .next t) : Resumes v t := by
  rcases commitReturn_cases hr h with ⟨_, rfl⟩ | ⟨_, rfl⟩
  · exact resumes_initDone r v
  · exact resumes_commitDone r v

theorem enterFreq_resumes {v t : State} (hr : v.pc.routine ≠ .none) (h : enterFreq v = .next t) : Resumes v t := by
  rw [enterFreq_eq] at h
  split at h
  · cases h
    exact (resumes_sent _ _).of_eq rfl rfl rfl
  · exact (commitReturn_resumes (v := setStage .freq v) hr h).of_eq rfl rfl rfl

theorem ledLoop_resumes {i : Nat} {v t : State} (hr : v.pc.routine ≠ .none) (h : ledLoop i v = .next t) :
    Resumes v t := by
  rw [ledLoop_eq] at h
  split at h
  · cases h
    exact (resumes_sent _ _).of_eq rfl rfl rfl
  · exact (enterFreq_resumes (v := setLedIndex ledCount v) hr h).of_eq rfl rfl rfl

theorem probeFailed_resumes {v t : State} (h : probeFailed v = .next t) : Resumes v t := by
  rw [probeFailed_eq] at h
  split at h
  · cases h
    exact resumes_sleepFor _ v
  · cases eq_of_initFinish h
    exact resumes_initDone _ v

theorem Access.of_elim_eq_next {α : Type} {x : Access α} {k : α → Out} {t : State} (h : x.elim k = .next t) :
    ∃ a, k a = .next t := by
  cases x with
  | ok a => exact ⟨a, h⟩
  | unwritten => cases h
  | outOfRange => cases h

theorem probeAnswered_resumes {v t : State} (h : probeAnswered v = .next t) : Resumes v t := by
  obtain ⟨version, h⟩ := Access.of_elim_eq_next h
  split at h
  · exact probeFailed_resumes h
  · rw [initProbed_eq] at h
    cases h
    exact (resumes_sent _ _).of_eq rfl rfl rfl

/-- From v, where an exchange is over, the stage resumes its routine; a stage that no routine has does nothing (log 7). -/
def ResumesOrRests (v t : State) : Prop := (v.pc.stage = .absent ∧ t = v) ∨ Resumes v t

theorem commandReturn_resumesOrRests {r : ResultCode} {v t : State} (hr : v.pc.routine ≠ .none)
    (h : commandReturn r v = .next t) : ResumesOrRests v t := by
  unfold commandReturn at h
  cases hs : v.pc.stage <;> rw [hs] at h <;> dsimp only at h
  case absent => exact .inl ⟨hs, (Host.Outcome.next.inj h).symm⟩
  case probe =>
    split at h
    · exact .inr (probeAnswered_resumes h)
    · exact .inr (probeFailed_resumes h)
  case res =>
    split at h
    · exact .inr ((ledLoop_resumes (v := setStage .led v) hr h).of_eq rfl rfl rfl)
    · exact .inr (commitReturn_resumes hr h)
  case led =>
    split at h
    · exact .inr (ledLoop_resumes hr h)
    · exact .inr (commitReturn_resumes hr h)
  case freq => exact .inr (commitReturn_resumes hr h)

/-! ## What a step takes -/

/-- RX of t is that of s, or all 90 bytes of the read answer that s waits for have been written to it (R56). -/
def RxKeptOrReceived (s t : State) : Prop :=
  t.rx = s.rx ∨ ∃ bs rest, s.pc.wait = .read ∧ s.env.reads = .returned bs :: rest ∧ bs.length = frameLen ∧
    t.rx = Memory.writeBytes s.rx 0 bs

/-- The step from s to t takes the answer s waits for; at a stage that a routine has, one event follows the logs of the
response. -/
structure Answered (s t : State) : Prop where
  taken : answerTaken s t
  rx : RxKeptOrReceived s t
  event : s.pc.stage = .absent ∨ ∃ logs e, IsLogs logs ∧ t.trace = s.trace ++ logs ++ [e] ∧ SendsOrEnds e t

theorem answerTaken_congr {s v t : State} (h : t.env = v.env) (hv : answerTaken s v) : answerTaken s t := by
  unfold answerTaken at hv ⊢
  rwa [h]

/-- The answer has led to v, with the logs of the response, and the routine goes on from there. -/
theorem ResumesOrRests.answered {s v t : State} {logs : List Event} (h : ResumesOrRests v t) (hl : IsLogs logs)
    (hpc : v.pc = s.pc) (htr : v.trace = s.trace ++ logs) (hv : answerTaken s v) (hrx : RxKeptOrReceived s v) :
    Answered s t := by
  rcases h with ⟨hs, rfl⟩ | ⟨⟨hrx', henv⟩, e, hte, he⟩
  · exact ⟨hv, hrx, .inl (hpc ▸ hs)⟩
  · exact ⟨answerTaken_congr henv hv, by rwa [RxKeptOrReceived, hrx'], .inr ⟨logs, e, hl, by rw [hte, htr], he⟩⟩

/-- An answer other than a full response changes nothing itself. -/
theorem answered_of_withEnv {s t : State} {e : Env} (hv : answerTaken s (withEnv s e))
    (h : ResumesOrRests (withEnv s e) t) : Answered s t :=
  h.answered isLogs_nil rfl (List.append_nil _).symm hv (.inl rfl)

theorem answered_of_writeAnswer {s t : State} {a : WriteAnswer} {rest : List WriteAnswer}
    (hr : s.pc.routine ≠ .none) (hw : s.pc.wait = .write) (hq : s.env.writes = a :: rest)
    (h : onWriteAnswer a (withEnv s { s.env with writes := rest }) = .next t) : Answered s t := by
  have hv : answerTaken s (withEnv s { s.env with writes := rest }) := by
    simp only [answerTaken, hw]
    exact ⟨⟨a, hq⟩, rfl, rfl⟩
  refine answered_of_withEnv hv ?_
  unfold onWriteAnswer at h
  split at h
  · cases h
    exact .inr ⟨⟨rfl, rfl⟩, _, rfl, .inl rfl⟩
  · exact commandReturn_resumesOrRests (v := withEnv s { s.env with writes := rest }) hr h

theorem answered_of_readAnswer {s t : State} {a : ReadAnswer} {rest : List ReadAnswer}
    (hr : s.pc.routine ≠ .none) (hw : s.pc.wait = .read) (hq : s.env.reads = a :: rest)
    (h : onReadAnswer a (withEnv s { s.env with reads := rest }) = .next t) : Answered s t := by
  have hv : answerTaken s (withEnv s { s.env with reads := rest }) := by
    simp only [answerTaken, hw]
    exact ⟨⟨a, hq⟩, rfl, rfl⟩
  rcases readAnswer_cases a with ⟨b, rfl, hb⟩ | hfail
  · rw [onReadAnswer_returned hb] at h
    have hx := Exchange.response (u := withEnv s { s.env with reads := rest }) hw b hb
    obtain ⟨logs, hl, htr⟩ := hx.logs
    have hret := commandReturn_resumesOrRests (by rw [hx.pc]; exact hr) h
    exact hret.answered hl hx.pc htr (answerTaken_congr hx.env hv) (.inr ⟨b, rest, hw, hq, hb, by simp [withEnv]⟩)
  · refine answered_of_withEnv hv ?_
    rw [onReadAnswer_failed hfail] at h
    split at h
    · cases h
      exact .inr ⟨⟨rfl, rfl⟩, _, rfl, .inl rfl⟩
    · exact commandReturn_resumesOrRests (v := withEnv s { s.env with reads := rest }) hr h

theorem answered_of_sleepDone {s t : State} {n : Nat} (hw : s.pc.wait = .sleep) (hq : s.env.ticks = n + 1)
    (h : onSleepDone (withEnv s { s.env with ticks := n }) = .next t) : Answered s t := by
  have hv : answerTaken s (withEnv s { s.env with ticks := n }) := by
    simp only [answerTaken, hw]
    exact ⟨hq, rfl, rfl⟩
  rw [onSleepDone_eq] at h
  cases h
  exact answered_of_withEnv hv (.inr ((resumes_sent _ _).of_eq rfl rfl rfl))

/-- The sequencer waits, starts a send of its own, or takes the answer to the request outstanding. -/
theorem sequencerMove_takes {s t : State} (h : sequencerMove s = .next t) :
    t = s ∨ (s.pc.wait = .none ∧ KeepsInputs s t) ∨ (s.pc.routine ≠ .none ∧ Answered s t) := by
  unfold sequencerMove at h
  split at h
  next => exact .inl (Host.Outcome.next.inj h).symm
  next hr =>
    split at h
    next hw => exact .inr (.inl ⟨hw, runPosition_keepsInputs h⟩)
    next hw =>
      split at h
      next => exact .inl (Host.Outcome.next.inj h).symm
      next a rest hq => exact .inr (.inr ⟨hr, answered_of_writeAnswer hr hw hq h⟩)
    next hw =>
      split at h
      next => exact .inl (Host.Outcome.next.inj h).symm
      next a rest hq => exact .inr (.inr ⟨hr, answered_of_readAnswer hr hw hq h⟩)
    next hw =>
      split at h
      next => exact .inl (Host.Outcome.next.inj h).symm
      next n hq => exact .inr (.inr ⟨hr, answered_of_sleepDone hw hq h⟩)

/-- Without a RESET the step is the sequencer's, or that of a host word on a ready port (R190). -/
theorem step_eq_sequencerMove_or_takeWord {s : State} (hn : noReset s = true) :
    ∃ moves, step s = sequencerMove (withEnv s { s.env with host := moves }) ∨
      (portReady s = true ∧ ∃ w, step s = takeWord w (withEnv s { s.env with host := moves })) := by
  by_cases hp : portReady s = true
  · unfold step machineStep
    cases hh : s.env.host with
    | nil => exact ⟨s.env.host, .inl rfl⟩
    | cons m rest =>
      cases m with
      | reset gen thumb => simp [noReset, hh] at hn
      | pause => exact ⟨s.env.host.tail, .inl rfl⟩
      | word w => exact ⟨s.env.host.tail, .inr ⟨hp, w, if_pos hp⟩⟩
  · obtain ⟨moves, h⟩ := step_quiet hn (by simpa using hp)
    exact ⟨moves, .inl h⟩

/-- A step that takes no answer: RX and the tapes stay, and an event comes only from a position with no wait or from the
port. -/
structure Unanswered (s t : State) : Prop where
  rx : t.rx = s.rx
  tapes : sameTapes s t
  event : t.trace = s.trace ∨ s.pc.wait = .none ∨ portReady s = true

/-- Every step but a RESET takes no answer, or the one the sequencer waits for. -/
theorem step_takes {s t : State} (hn : noReset s = true) (h : step s = .next t) :
    Unanswered s t ∨ (s.pc.routine ≠ .none ∧ Answered s t) := by
  obtain ⟨moves, hs | ⟨hp, w, hs⟩⟩ := step_eq_sequencerMove_or_takeWord hn <;> rw [hs] at h
  · rcases sequencerMove_takes h with rfl | ⟨hw, hrx, henv⟩ | ⟨hr, htaken, hrx, hevent⟩
    · exact .inl ⟨rfl, ⟨rfl, rfl, rfl⟩, .inl rfl⟩
    · exact .inl ⟨hrx, by simp [sameTapes, henv, withEnv], .inr (.inl hw)⟩
    · exact .inr ⟨hr, htaken, hrx, hevent⟩
  · obtain ⟨hrx, henv⟩ := takeWord_keepsInputs h
    exact .inl ⟨hrx, by simp [sameTapes, henv, withEnv], .inr (.inr hp)⟩

/-! ## RX and the requests -/

/-- A whole response written to RX is all of RX (R56). -/
theorem loadsRx_of_writeBytes {s t : State} {bs : List Byte} (hb : bs.length = frameLen)
    (h : t.rx = Memory.writeBytes s.rx 0 bs) : loadsRx bs s t := by
  intro a
  rw [show peek t .rx a = Memory.readByte t.rx a from rfl, h, Memory.readByte_writeBytes, hb]
  simp [frameLen, peek, buffer]

/-- Settles O51: only the answer to a read is written to RX, and only one of 90 bytes. -/
theorem rxIsWrittenWholeOrNotAtAll : Obligations.RxIsWrittenWholeOrNotAtAll := by
  intro s t hn h
  have kept : t.rx = s.rx → ∀ a, peek t .rx a = peek s .rx a := fun hrx a => congrArg (Memory.readByte · a) hrx
  rcases step_takes hn h with hu | ⟨-, ha⟩
  · exact .inl (kept hu.rx)
  · rcases ha.rx with hrx | ⟨bs, rest, hw, hq, hb, hrx⟩
    · exact .inl (kept hrx)
    · exact .inr ⟨bs, rest, hw, hq, hb, loadsRx_of_writeBytes hb hrx⟩

theorem IsLogs.isRequest_eq_false {logs : List Event} (h : IsLogs logs) : ∀ e ∈ logs, isRequest e = false := by
  intro e he
  rcases h.forall_log he with ⟨_, _, rfl⟩ | ⟨_, rfl⟩ <;> rfl

theorem IsLogs.isRequest_concat {logs : List Event} (h : IsLogs logs) {e : Event} (he : isRequest e = false) :
    ∀ x ∈ logs ++ [e], isRequest x = false := by
  intro x hx
  rcases List.mem_append.mp hx with hx | hx
  · exact h.isRequest_eq_false x hx
  · rwa [List.mem_singleton.mp hx]

/-- A move issues one request, as its last event, and waits for its answer, or it issues none. -/
theorem Ending.request_cases {u t : State} {logs : List Event} (h : Ending u t logs) (hl : IsLogs logs) :
    (t.pc.wait ≠ .none ∧ ∃ e, t.trace = u.trace ++ (logs ++ [e]) ∧ isRequest e = true) ∨
      ∃ es, t.trace = u.trace ++ es ∧ ∀ e ∈ es, isRequest e = false := by
  cases h with
  | still htr => exact .inr ⟨logs, htr, hl.isRequest_eq_false⟩
  | writes _ htr _ _ hwait => exact .inl ⟨by simp [hwait], _, by rw [htr, List.append_assoc], rfl⟩
  | reads htr _ _ hwait => exact .inl ⟨by simp [hwait], _, by rw [htr, List.append_assoc], rfl⟩
  | sleeps htr _ _ hwait => exact .inl ⟨by simp [hwait], _, by rw [htr, List.append_assoc], rfl⟩
  | completes r htr => exact .inr ⟨_, by rw [htr, List.append_assoc], hl.isRequest_concat rfl⟩

/-- From a position with no wait, a move that leaves the block waiting starts a routine (R32, R198). -/
theorem Control.routineStarts {u t : State} (h : Control u t) (hu : u.pc.wait = .none) (ht : t.pc.wait ≠ .none) :
    routineStarts u t := by
  cases h with
  | stays _ hpc => exact absurd (hpc ▸ hu) ht
  | starts h => exact .inl h
  | commits h _ hphase => exact .inr ⟨h, hphase⟩
  | reads g | sleeps g | wakes g | probed g | toLed g | toFreq g => exact absurd hu g.waited
  | initEnds _ hw | commitEnds _ hw => exact absurd hu hw

/-- Settles O59: a step that takes its answer ends in a request or ends the routine; one that takes none sends only to
start a routine. -/
theorem aRequestIsIssuedOnlyAfterThePreviousAnswer : Obligations.ARequestIsIssuedOnlyAfterThePreviousAnswer := by
  intro s t hp hn h
  have pos := position_of_positionOk hp
  rcases step_takes hn h with ⟨-, htapes, hevent⟩ | ⟨hr, htaken, -, hevent⟩
  · rcases hevent with htr | hready
    · exact ⟨[], by rw [htr, List.append_nil], .inr ⟨by simp, .inl htapes⟩⟩
    · have hw : s.pc.wait = .none := by
        rcases hready with hw | hready
        · exact hw
        · rw [pos.pc_of_ready (by simpa [portReady] using hready)]; rfl
      obtain ⟨e, hm⟩ := move_of_step hn h
      obtain ⟨logs, hl, hend⟩ := hm.ending
      rcases hend.request_cases hl with ⟨ht, r, htr, hreq⟩ | ⟨es, htr, hes⟩
      · have pos' : Position (withEnv s e) := position_of_positionOk hp
        exact ⟨_, htr, .inl ⟨logs, r, rfl, hreq, hl.isRequest_eq_false, .inr ((hm.control pos').routineStarts hw ht)⟩⟩
      · exact ⟨es, htr, .inr ⟨hes, .inl htapes⟩⟩
  · obtain ⟨logs, r, hl, htr, hreq⟩ := hevent.resolve_left (pos.stage_ne_absent hr)
    rw [List.append_assoc] at htr
    refine ⟨_, htr, ?_⟩
    rcases hreq with hreq | ⟨hreq, hpc⟩
    · exact .inl ⟨logs, r, rfl, hreq, hl.isRequest_eq_false, .inl htaken⟩
    · exact .inr ⟨hl.isRequest_concat hreq, .inr ⟨htaken, hpc⟩⟩

end Sys2Proof.Machine
end

section
/-! The two wire formats (30_encoding.md): each decoder undoes the encoder, and what it accepts is an encoding. -/

namespace Sys2Proof.Machine

open Sys2Proof.Safety

/-! ## Host words, field by field (R78) -/

/-- A host word is its four fields. -/
theorem hostWord_ext_iff {v w : HostWord} :
    v = w ↔ hostOpcode v = hostOpcode w ∧ hostA v = hostA w ∧ hostB v = hostB w ∧ hostZ v = hostZ w := by
  refine ⟨fun h => by simp [h], fun ⟨hop, ha, hb, hz⟩ => BitVec.eq_of_toNat_eq ?_⟩
  simp only [hostOpcode, hostA, hostB, hostZ, ← BitVec.toNat_inj, BitVec.extractLsb'_toNat,
    Nat.shiftRight_eq_div_pow] at hop ha hb hz
  have hv := v.isLt
  have hw := w.isLt
  omega

@[simp] theorem hostOpcode_and (v w : HostWord) : hostOpcode (v &&& w) = hostOpcode v &&& hostOpcode w :=
  BitVec.extractLsb'_and
@[simp] theorem hostA_and (v w : HostWord) : hostA (v &&& w) = hostA v &&& hostA w := BitVec.extractLsb'_and
@[simp] theorem hostB_and (v w : HostWord) : hostB (v &&& w) = hostB v &&& hostB w := BitVec.extractLsb'_and
@[simp] theorem hostZ_and (v w : HostWord) : hostZ (v &&& w) = hostZ v &&& hostZ w := BitVec.extractLsb'_and

@[simp] theorem hostOpcode_hostWord (op a b : Byte) : hostOpcode (hostWord op a b) = op := by
  unfold hostOpcode hostWord
  rw [BitVec.extractLsb'_append_eq_of_le (by decide), BitVec.extractLsb'_append_eq_of_le (by decide)]
  exact BitVec.extractLsb'_append_eq_left
@[simp] theorem hostA_hostWord (op a b : Byte) : hostA (hostWord op a b) = a := by
  unfold hostA hostWord
  rw [BitVec.extractLsb'_append_eq_of_le (by decide), BitVec.extractLsb'_append_eq_of_le (by decide)]
  exact BitVec.extractLsb'_append_eq_right
@[simp] theorem hostB_hostWord (op a b : Byte) : hostB (hostWord op a b) = b := by
  unfold hostB hostWord
  rw [BitVec.extractLsb'_append_eq_of_le (by decide)]
  exact BitVec.extractLsb'_append_eq_right

/-- The encoder's words are those whose Z field is 0 (R78, R83). -/
theorem hostWord_eq_iff {op a b : Byte} {w : HostWord} :
    hostWord op a b = w ↔ hostOpcode w = op ∧ hostA w = a ∧ hostB w = b ∧ hostZ w = 0#8 := by
  simp only [hostWord_ext_iff, hostOpcode_hostWord, hostA_hostWord, hostB_hostWord,
    Laws.WireFormat.hostZ_hostWord, eq_comm]

/-- The word built from fields is those fields shifted into place (R78, R83). -/
theorem hostWord_eq_or (op a b : Byte) :
    hostWord op a b = op.setWidth 32 <<< 24 ||| a.setWidth 32 <<< 16 ||| b.setWidth 32 <<< 8 := by
  have h := BitVec.setWidth_append_append_append_eq_shiftLeft_setWidth_or (w'''' := 32) (b := op) (b' := a)
    (b'' := b) (b''' := 0#8)
  rw [BitVec.setWidth_eq] at h
  exact h.trans (BitVec.or_zero)

/-! ## The host decoder (R79, R81) -/

/-- COMMIT's row leaves bit 0 of the A field free, which is its force operand (R79). -/
theorem and_notOne_eq_zero_iff : ∀ a : Byte, a &&& 0xFE#8 = 0#8 ↔ a = if a.getLsbD 0 then 1#8 else 0#8 := by
  decide

theorem getLsbD_hostA_zero (w : HostWord) : (hostA w).getLsbD 0 = w.getLsbD 16 := by
  simp [hostA]

/-- A row matches a word field by field (R78, R81). -/
theorem hits_iff {r : HostRow} {w : HostWord} :
    r.hits w = true ↔
      hostOpcode w &&& hostOpcode r.mask = hostOpcode r.pattern ∧ hostA w &&& hostA r.mask = hostA r.pattern ∧
        hostB w &&& hostB r.mask = hostB r.pattern ∧ hostZ w &&& hostZ r.mask = hostZ r.pattern := by
  simp only [HostRow.hits, beq_iff_eq, hostWord_ext_iff (v := w &&& r.mask), hostOpcode_and, hostA_and, hostB_and,
    hostZ_and]

/-- A matching row has the word's opcode (R78, R79). -/
theorem opcode_of_hits {r : HostRow} (hr : r ∈ hostRows) {w : HostWord} (h : r.hits w = true) :
    hostOpcode r.pattern = hostOpcode w := by
  have hm : ∀ r ∈ hostRows, hostOpcode r.mask = 0xFF#8 := by simp [hostRows, hostOpcode]
  obtain ⟨hop, -⟩ := hits_iff.mp h
  rw [hm r hr] at hop
  exact hop.symm.trans BitVec.and_allOnes

/-- No two rows have the same opcode, so a word matches at most one (R79). -/
theorem eq_of_hits {r q : HostRow} (hr : r ∈ hostRows) (hq : q ∈ hostRows) {w : HostWord} (h : r.hits w = true)
    (h' : q.hits w = true) : r = q :=
  have opcodes_nodup : (hostRows.map fun r => hostOpcode r.pattern).Nodup := by decide
  List.inj_on_of_nodup_map opcodes_nodup hr hq ((opcode_of_hits hr h).trans (opcode_of_hits hq h').symm)

/-- The one row that matches gives the meaning (R81). -/
theorem decodeHost_eq_ok_iff_exists_row {w : HostWord} {i : Instr} :
    decodeHost w = .ok i ↔ ∃ r ∈ hostRows, r.hits w = true ∧ r.build w = i := by
  unfold decodeHost
  cases h : hostRows.find? (fun r => r.hits w) with
  | none =>
    have hno : ∀ r ∈ hostRows, r.hits w = false := by simpa using h
    exact ⟨fun h => by simp at h, fun ⟨r, hr, hits, _⟩ => by simp [hno r hr] at hits⟩
  | some r =>
    have hr := List.mem_of_find?_eq_some h
    have hits := List.find?_some (p := fun r : HostRow => r.hits w) h
    refine ⟨fun h => ⟨r, hr, hits, Except.ok.inj h⟩, fun ⟨q, hq, hits', hb⟩ => ?_⟩
    rw [eq_of_hits hr hq hits hits', ← hb]

/-- A word is legal iff a row of the map matches it (R81). -/
theorem decodeHost_isOk_iff {w : HostWord} : (∃ i, decodeHost w = .ok i) ↔ ∃ r ∈ hostRows, r.hits w = true := by
  simp only [decodeHost_eq_ok_iff_exists_row]
  exact ⟨fun ⟨_, r, hr, hits, _⟩ => ⟨r, hr, hits⟩, fun ⟨r, hr, hits⟩ => ⟨_, r, hr, hits, rfl⟩⟩

/-- What a matching row builds encodes to the word: the row's mask leaves out operand bits only (R79). -/
theorem encode_build {r : HostRow} (hr : r ∈ hostRows) {w : HostWord} (h : r.hits w = true) :
    encode (r.build w) = .host w := by
  obtain ⟨hop, ha, hb, hz⟩ := hits_iff.mp h
  simp only [hostRows, List.mem_cons, List.not_mem_nil, or_false] at hr
  have field : ∀ {x y : Byte}, x &&& 0xFF#8 = y → x = y := fun h => BitVec.and_allOnes.symm.trans h
  rcases hr with rfl | rfl | rfl | rfl | rfl | rfl <;> refine congrArg Wire.host (hostWord_eq_iff.mpr ?_)
  · exact ⟨field hop, field ha, field hb, field hz⟩
  · exact ⟨field hop, field ha, field hb, field hz⟩
  · exact ⟨field hop, rfl, rfl, field hz⟩
  · exact ⟨field hop, rfl, field hb, field hz⟩
  · exact ⟨field hop, rfl, rfl, field hz⟩
  · have hforce := (and_notOne_eq_zero_iff _).mp ha
    rw [getLsbD_hostA_zero] at hforce
    exact ⟨field hop, hforce, field hb, field hz⟩

/-- The row that gives an instruction matches its encoding (R79). -/
theorem exists_row_of_encode {i : Instr} {w : HostWord} (h : encode i = .host w) :
    ∃ r ∈ hostRows, r.hits w = true ∧ r.build w = i := by
  cases i <;> simp only [encode, Wire.host.injEq, reduceCtorEq] at h
  all_goals
    obtain ⟨hop, ha, hb, hz⟩ := hostWord_eq_iff.mp h
    simp only [hostRows, List.mem_cons, List.not_mem_nil, or_false, exists_eq_or_imp, exists_eq_left, hits_iff, hop,
      ha, hb, hz, ← getLsbD_hostA_zero]
    simp [hostOpcode, hostA, hostB, hostZ]
  case commit force => cases force <;> simp

/-- The host decoder and the encoder are inverse to each other: a word is the encoding of the one instruction it decodes to,
and of no other (R79, R81). -/
theorem decodeHost_eq_ok_iff {w : HostWord} {i : Instr} : decodeHost w = .ok i ↔ encode i = .host w := by
  rw [decodeHost_eq_ok_iff_exists_row]
  refine ⟨?_, exists_row_of_encode⟩
  rintro ⟨r, hr, hits, rfl⟩
  exact encode_build hr hits

/-! ## Frames (R72, R74, R75) -/

/-- The ids and value bytes of an instruction that is a frame (R74, R75). -/
def frameLayout : Instr → Option ((BitVec 16 × BitVec 16) × Values)
  | .fwquery => some (idsFwquery, ⟨0#8, 0#8, 0#8, 0#8, 0#8⟩)
  | .ressetLegacy vx vy => some (idsRessetLegacy, ⟨vx, vy, 0#8, 0#8, 0#8⟩)
  | .ressetExt x y => some (idsRessetExt, ⟨0#8, hi8 x, lo8 x, hi8 y, lo8 y⟩)
  | .ledset s0 s1 on => some (idsLedset, ⟨s0, s1, on, 0#8, 0#8⟩)
  | .freqset c => some (idsFreqset, ⟨c, 0#8, 0#8, 0#8, 0#8⟩)
  | .acquire | .release | .setled _ _ | .setfreq _ | .setres _ _ | .commit _ => none

/-- The encoding of a frame instruction is ENCODE of its layout (R75, R102). -/
theorem encode_eq_frame_iff {i : Instr} {f : Frame} :
    encode i = .frame f ↔ ∃ cmd req v, frameLayout i = some ((cmd, req), v) ∧ f = encodeFrame cmd req v := by
  cases i <;> simp [encode, frameLayout, fwqueryFrame, ressetLegacyFrame, ressetExtFrame, ledsetFrame, freqsetFrame,
    idsFwquery, idsRessetLegacy, idsRessetExt, idsLedset, idsFreqset, eq_comm]

/-- The pair of ids selects the kind (R74). -/
theorem ids_mem_of_frameLayout {i : Instr} {ids : BitVec 16 × BitVec 16} {v : Values}
    (h : frameLayout i = some (ids, v)) :
    ids ∈ [idsFwquery, idsRessetLegacy, idsRessetExt, idsLedset, idsFreqset] := by
  cases i <;> simp only [frameLayout, Option.some.injEq, Prod.mk.injEq, reduceCtorEq] at h <;> simp [← h.1]

/-- The five pairs of ids are distinct (R74). -/
theorem ids_pairwise_ne :
    idsRessetLegacy ≠ idsFwquery ∧ idsRessetExt ≠ idsFwquery ∧ idsRessetExt ≠ idsRessetLegacy ∧
      idsLedset ≠ idsFwquery ∧ idsLedset ≠ idsRessetLegacy ∧ idsLedset ≠ idsRessetExt ∧ idsFreqset ≠ idsFwquery ∧
      idsFreqset ≠ idsRessetLegacy ∧ idsFreqset ≠ idsRessetExt ∧ idsFreqset ≠ idsLedset := by decide

/-- The frame decoder accepts a frame whose fixed bytes are 0 (R72), as the one instruction that has its ids and value
bytes. -/
theorem decodeFrame_eq_ok_iff {f : Frame} {i : Instr} :
    decodeFrame f = .ok i ↔
      fixedBytesZero f = true ∧
        frameLayout i = some (((decodeFields f).cmd, (decodeFields f).req), (decodeFields f).values) := by
  unfold decodeFrame
  simp only
  generalize ((decodeFields f).cmd, (decodeFields f).req) = ids
  obtain ⟨v0, v1, v2, v3, v4⟩ := (decodeFields f).values
  constructor
  · intro h
    split at h
    next j unused hf =>
      split at h
      next hz =>
        cases h
        obtain ⟨hfixed, hunused⟩ := Bool.and_eq_true_iff.mp hz
        refine ⟨hfixed, ?_⟩
        repeat' split at hf
        all_goals cases hf
        all_goals simp_all [frameLayout]
      next => cases h
    next => cases h
  · rintro ⟨hfixed, hl⟩
    cases i <;> simp only [frameLayout, reduceCtorEq, Option.some.injEq, Prod.mk.injEq, Values.mk.injEq] at hl
    all_goals
      obtain ⟨rfl, rfl, rfl, rfl, rfl, rfl⟩ := hl
      simp [ids_pairwise_ne, hfixed]

@[simp] theorem decodeFields_encodeFrame_cmd (cmd req : BitVec 16) (v : Values) :
    (decodeFields (encodeFrame cmd req v)).cmd = cmd := by
  simp [decodeFields, byteAt_encodeFrame, byteAt_encodeBody]

@[simp] theorem decodeFields_encodeFrame_req (cmd req : BitVec 16) (v : Values) :
    (decodeFields (encodeFrame cmd req v)).req = req := by
  simp [decodeFields, byteAt_encodeFrame, byteAt_encodeBody]

@[simp] theorem decodeFields_encodeFrame_values (cmd req : BitVec 16) (v : Values) :
    (decodeFields (encodeFrame cmd req v)).values = v := by
  simp [decodeFields, byteAt_encodeFrame, byteAt_encodeBody]

/-- The frame decoder undoes the encoder. -/
theorem decodeFrame_of_encode {i : Instr} {f : Frame} (h : encode i = .frame f) : decodeFrame f = .ok i := by
  obtain ⟨cmd, req, v, hl, rfl⟩ := encode_eq_frame_iff.mp h
  refine decodeFrame_eq_ok_iff.mpr ⟨(Laws.WireFormat.encodeFrame_checked cmd req v).2, ?_⟩
  simpa using hl

/-- Settles O1: each decoder undoes the encoder on the instructions of its format. -/
theorem decodeOfEncodeIsTheInstruction : Obligations.DecodeOfEncodeIsTheInstruction := by
  intro i
  cases h : encode i with
  | host w => exact decodeHost_eq_ok_iff.mpr h
  | frame f => exact decodeFrame_of_encode h

/-- Settles O2: the host decoder accepts encodings only. -/
theorem legalHostWordIsTheEncodingOfItsMeaning : Obligations.LegalHostWordIsTheEncodingOfItsMeaning :=
  fun _ _ h => decodeHost_eq_ok_iff.mp h

/-- A slice is 0 throughout iff each of its bytes is. -/
theorem slice_all_zero_iff {f : Frame} {a n : Nat} (h : a + n ≤ 90) :
    (slice f a n).all (· == 0#8) = true ↔ ∀ i, a ≤ i → i < a + n → byteAt f i = 0#8 := by
  simp only [List.all_eq_true, beq_iff_eq]
  constructor
  · intro hz i h1 h2
    have hget : (slice f a n)[i - a]? = some (byteAt f i) := by
      rw [slice, List.getElem?_take_of_lt (by omega), List.getElem?_drop, Nat.add_sub_cancel' h1,
        bytes_getElem? f (by omega)]
    exact hz _ (List.mem_of_getElem? hget)
  · intro hz b hb
    obtain ⟨i, h1, h2, rfl⟩ := mem_slice hb
    exact hz i h1 h2

/-- The fixed bytes of R72, one by one. -/
theorem fixedBytesZero_iff {f : Frame} :
    fixedBytesZero f = true ↔
      byteAt f 0 = 0#8 ∧ (∀ i, 1 ≤ i → i ≤ 3 → byteAt f i = 0#8) ∧ (∀ i, 13 ≤ i → i ≤ 87 → byteAt f i = 0#8) ∧
        byteAt f 89 = 0#8 := by
  simp only [fixedBytesZero, decodeFields, Bool.and_eq_true, beq_iff_eq, and_assoc,
    slice_all_zero_iff (show 1 + 3 ≤ 90 by decide), slice_all_zero_iff (show 13 + 75 ≤ 90 by decide),
    Nat.reduceAdd, show ∀ i, i < 4 ↔ i ≤ 3 by omega, show ∀ i, i < 88 ↔ i ≤ 87 by omega]

/-- A frame whose fixed bytes are 0 is, but for its checksum byte, ENCODE of its own fields (R72, R103). -/
theorem byteAt_eq_of_fixedBytesZero {f : Frame} (h : fixedBytesZero f = true) {k : Nat} (hk : k < 90) (h88 : k ≠ 88) :
    byteAt f k = byteAt (encodeFrame (decodeFields f).cmd (decodeFields f).req (decodeFields f).values) k := by
  obtain ⟨h0, hA, hB, hC⟩ := fixedBytesZero_iff.mp h
  have outside : k < 4 ∨ 12 < k → byteAt f k = 0#8 := by
    intro hout
    obtain rfl | ⟨h1, h2⟩ | ⟨h1, h2⟩ | rfl : k = 0 ∨ (1 ≤ k ∧ k ≤ 3) ∨ (13 ≤ k ∧ k ≤ 87) ∨ k = 89 := by omega
    · exact h0
    · exact hA k h1 h2
    · exact hB k h1 h2
    · exact hC
  rw [byteAt_encodeFrame, if_neg h88, byteAt_encodeBody]
  simp only [decodeFields, hi8_be16, lo8_be16]
  by_cases hin : 4 ≤ k ∧ k ≤ 12
  · obtain ⟨h4, h12⟩ := hin
    interval_cases k <;> rfl
  · rw [outside (by omega)]
    repeat' rw [if_neg (by omega)]

/-- Settles O3: the layout of the instruction decoded is that of the frame's own fields. -/
theorem decodedFrameIsItsEncodingButForTheChecksum : Obligations.DecodedFrameIsItsEncodingButForTheChecksum := by
  intro f i h
  obtain ⟨hfixed, hl⟩ := decodeFrame_eq_ok_iff.mp h
  exact ⟨_, encode_eq_frame_iff.mpr ⟨_, _, _, hl, rfl⟩, fun k hk h88 => byteAt_eq_of_fixedBytesZero hfixed hk h88⟩

/-! ## Sample words, illegal words, pseudo-operations -/

/-- A listed frame decodes by its ids and value bytes, whatever its checksum byte is (R85, R103). -/
theorem decodeFrame_listedFrame {i : Instr} {cmd req : BitVec 16} {v : Values} (h : frameLayout i = some ((cmd, req), v))
    (ck : Byte) : decodeFrame (listedFrame cmd req v ck) = .ok i := by
  have bytes : ∀ k, byteAt (listedFrame cmd req v ck) k = if 88 = k then ck else byteAt (encodeBody cmd req v) k :=
    fun k => byteAt_setByte _ _ _ _ (by decide)
  refine decodeFrame_eq_ok_iff.mpr ⟨fixedBytesZero_iff.mpr ⟨?_, fun k _ _ => ?_, fun k _ _ => ?_, ?_⟩, ?_⟩
  · simp [bytes, byteAt_encodeBody]
  · rw [bytes, byteAt_encodeBody]
    repeat' rw [if_neg (by omega)]
  · rw [bytes, byteAt_encodeBody]
    repeat' rw [if_neg (by omega)]
  · simp [bytes, byteAt_encodeBody]
  · simpa [decodeFields, bytes, byteAt_encodeBody] using h

/-- Settles O4: the host words and the frames by their fields. -/
theorem sampleWordsDecode : Obligations.SampleWordsDecode :=
  ⟨by decide, by decide, by decide, by decide, by decide, by decide, decodeFrame_listedFrame rfl _,
    decodeFrame_listedFrame rfl _⟩

/-- Settles O5: the masks are those of the map's rows, and an illegal word taken in IDLE completes with IllegalOp. -/
theorem illegalWordCompletesWithIllegalOp : Obligations.IllegalWordCompletesWithIllegalOp := by
  refine ⟨fun w => ?_, fun s w rest hp hh hill => ?_⟩
  · simp [decodeHost_isOk_iff, hostRows, HostRow.hits]
  · have hready : portReady s = true := by simp [portReady, hp]
    have hdrop : dropHostMove s = withEnv s { s.env with host := rest } := by simp [dropHostMove, hh, withEnv]
    have htake : step s = takeWord w (dropHostMove s) := by
      simp only [step, machineStep, hh, hready, if_true]
    rw [htake, hdrop]
    unfold takeWord
    cases hd : decodeHost w with
    | ok i => exact absurd hd (hill i)
    | error e => exact hostOp_idle (s := withEnv s { s.env with host := rest }) hp _

/-- Settles O58: both sides of each equation are fields shifted into place. -/
theorem pseudoOperationsExpand : Obligations.PseudoOperationsExpand := by
  intro x
  simp only [expandPseudo, hostWordsOf, encode, List.filterMap_cons, List.filterMap_nil, hostWord_eq_or]
  have right_comm : ∀ a b c : HostWord, a ||| b ||| c = a ||| c ||| b := fun a b c => by
    rw [BitVec.or_assoc, BitVec.or_comm b c, BitVec.or_assoc]
  simp [right_comm _ (x.setWidth 32 <<< 16)]

end Sys2Proof.Machine
end

section
/-! What the block sends and logs: the frame instructions, and every event a step may append (R72, R74, R120 to R131). -/

namespace Sys2Proof.Machine

open Sys2Proof.Safety

/-! ## The layout of an encoded frame (R101, R102) -/

/-- Bytes that are 0 add nothing to a checksum. -/
theorem foldl_xor_eq_self {f : Frame} {l : List Nat} (h : ∀ i ∈ l, byteAt f i = 0#8) (c : Byte) :
    l.foldl (fun c i => c ^^^ byteAt f i) c = c := by
  induction l with
  | nil => rfl
  | cons i l ih =>
    rw [List.foldl_cons, h i List.mem_cons_self, BitVec.xor_zero]
    exact ih fun j hj => h j (List.mem_cons_of_mem _ hj)

/-- The checksum of an encoded frame is the XOR of the nine bytes that can be nonzero (R101). -/
theorem checksum_encodeBody (cmd req : BitVec 16) (v : Values) :
    checksum (encodeBody cmd req v) =
      hi8 cmd ^^^ lo8 cmd ^^^ hi8 req ^^^ lo8 req ^^^ v.v0 ^^^ v.v1 ^^^ v.v2 ^^^ v.v3 ^^^ v.v4 := by
  have covered : List.range' ckFirst (ckLast + 1 - ckFirst) = List.range' 2 11 ++ List.range' 13 75 := rfl
  have padding : ∀ i ∈ List.range' 13 75, byteAt (encodeBody cmd req v) i = 0#8 := by
    intro i hi
    have h13 : 13 ≤ i := (List.mem_range'_1.mp hi).1
    rw [byteAt_encodeBody]
    repeat' rw [if_neg (by omega)]
  rw [checksum, covered, List.foldl_append, foldl_xor_eq_self padding]
  simp [List.range', byteAt_encodeBody]

/-- ENCODE gives the layout written out in the statements (R101, R102). -/
theorem isFrame_encodeFrame (cmd req : BitVec 16) (v : Values) : isFrame cmd req v (encodeFrame cmd req v) := by
  intro i _
  rw [byteAt_encodeFrame, checksum_encodeBody, byteAt_encodeBody]
  unfold frameByte
  by_cases h88 : i = 88
  · subst h88; rfl
  · simp only [if_neg h88]; rfl

/-- What the frame instructions do, given by their layout (R72, R120, R129). -/
theorem exec_of_frameLayout {i : Instr} {cmd req : BitVec 16} {v : Values} (h : frameLayout i = some ((cmd, req), v))
    (s : State) :
    ∃ t f, exec i s = .next t ∧ isFrame cmd req v f ∧ loadsTx f s t ∧
      t.trace = s.trace ++ [.wrReq (writeShape s.params.writeReq) f] ∧ t.pc = { s.pc with wait := .write } ∧
      t.micro = { s.micro with cur := f } ∧ sameRegisters s t ∧ t.env = s.env := by
  have hsent := exec_of_encode_frame (encode_eq_frame_iff.mpr ⟨cmd, req, v, h, rfl⟩) s
  refine ⟨sent (encodeFrame cmd req v) s, encodeFrame cmd req v, hsent, isFrame_encodeFrame cmd req v,
    ⟨fun a => ?_, fun a => peek_rx_sent _ s a⟩, ?_, sent_pc _ s, sent_micro _ s, by simp [sameRegisters], sent_env _ s⟩
  · rw [peek_tx_sent, withChecksum_encodeFrame]
  · rw [sent_trace, withChecksum_encodeFrame]; rfl

/-- Settles O10: each of the five by its layout. -/
theorem frameInstructionsSendTheirFrame : Obligations.FrameInstructionsSendTheirFrame := fun s =>
  ⟨exec_of_frameLayout rfl s, fun _ _ => exec_of_frameLayout rfl s, fun _ _ => exec_of_frameLayout rfl s,
    fun _ _ _ => exec_of_frameLayout rfl s, fun _ => exec_of_frameLayout rfl s⟩

/-! ## The frames the block builds -/

/-- The frame is the encoding of a well-formed frame instruction. -/
def IsBuilt (f : Frame) : Prop := ∃ i : Instr, i.wf = true ∧ encode i = .frame f

theorem isBuilt_fwqueryFrame : IsBuilt fwqueryFrame := ⟨.fwquery, rfl, rfl⟩

/-- The legacy byte of a resolution is 4 times the quotient, truncated (R143). -/
theorem wfLegacyByte_legacyByte (r : Nat) : wfLegacyByte (legacyByte r) = true := by
  simp only [wfLegacyByte, legacyByte, BitVec.toNat_ofNat, beq_iff_eq]
  omega

/-- The resolution of a 7-bit cursor fits 16 bits (R140, R144). -/
theorem wfResolution_extWord (k : BitVec 7) : wfResolution (extWord (res k.toNat)) = true := by
  have hk := k.isLt
  have hfits : (extWord (res k.toNat)).toNat = 100 + 100 * k.toNat := by
    simp only [extWord, res, resBase, resStep, BitVec.toNat_ofNat]
    omega
  simp only [wfResolution, hfits, Bool.and_eq_true, beq_iff_eq, decide_eq_true_eq]
  omega

theorem isBuilt_resEncode (c : Conf) : IsBuilt (resEncode c) := by
  unfold resEncode
  split
  · exact ⟨.ressetLegacy _ _, Bool.and_eq_true_iff.mpr ⟨wfLegacyByte_legacyByte _, wfLegacyByte_legacyByte _⟩, rfl⟩
  · exact ⟨.ressetExt _ _, Bool.and_eq_true_iff.mpr ⟨wfResolution_extWord _, wfResolution_extWord _⟩, rfl⟩

theorem isBuilt_ledFrame (p : Params) (c : Conf) (k : Nat) : IsBuilt (ledFrame p c k) := by
  refine ⟨.ledset _ _ _, ?_, rfl⟩
  show wfOnByte (onByte _) = true
  unfold onByte
  split <;> rfl

theorem isBuilt_freqsetFrame {code : BitVec 8} {c : Byte} (h : freqByte code = some c) : IsBuilt (freqsetFrame c) := by
  refine ⟨.freqset c, ?_, rfl⟩
  unfold freqByte at h
  repeat' split at h
  all_goals cases h
  all_goals rfl

/-- The checksum byte of an encoding is right, so the send changes nothing (R102, R106). -/
theorem checksum_of_encode {i : Instr} {f : Frame} (h : encode i = .frame f) : checksum f = byteAt f 88 := by
  obtain ⟨cmd, req, v, -, rfl⟩ := encode_eq_frame_iff.mp h
  exact beq_iff_eq.mp (Laws.WireFormat.encodeFrame_checked cmd req v).1

/-! ## The events of a move -/

/-- The position of log 8, at which a step sends whatever frame `cur` holds; no run rests there. -/
def SendsCur (u : State) : Prop := u.pc.routine ≠ .none ∧ u.pc.wait = .none ∧ u.pc ≠ SeqPc.entry

/-- An event that a move from u may append. -/
inductive Appendable (u : State) : Event → Prop
  | writes (i : Instr) (f : Frame) (hf : encode i = .frame f) (hwf : i.wf = true ∨ SendsCur u) :
      Appendable u (.wrReq (writeSetup u.params) f)
  | reads : Appendable u (.rdReq (readSetup u.params))
  | sleeps : Appendable u (.sleepReq 250)
  | mismatch (computed received : Byte) (h : computed ≠ received) : Appendable u (.logCk computed received)
  | abnormal (status : Byte) (h : statusNormal status = false) : Appendable u (.logAnom status)
  | completes (r : ResultCode) : Appendable u (.done r)

/-- From u to t the trace has grown by such events. -/
def Appends (u t : State) : Prop := ∃ es, t.trace = u.trace ++ es ∧ ∀ e ∈ es, Appendable u e

theorem Appends.refl (u : State) : Appends u u := ⟨[], (List.append_nil _).symm, by simp⟩

/-- One more event. -/
theorem Appends.snoc {u v t : State} {e : Event} (h : Appends u v) (htr : t.trace = v.trace ++ [e])
    (he : Appendable u e) : Appends u t := by
  obtain ⟨es, hv, hes⟩ := h
  refine ⟨es ++ [e], by rw [htr, hv, List.append_assoc], fun x hx => ?_⟩
  rcases List.mem_append.mp hx with hx | hx
  · exact hes x hx
  · rwa [List.mem_singleton.mp hx]

/-- A response is logged only for what is wrong with it (R130, R131). -/
theorem appendable_of_mem_responseLogs {u : State} {f : Frame} {e : Event} (h : e ∈ responseLogs f) :
    Appendable u e := by
  rw [responseLogs, List.mem_append] at h
  rcases h with h | h <;> split at h
  next => simp at h
  next hck => rw [List.mem_singleton.mp h]; exact .mismatch _ _ hck
  next => simp at h
  next hst =>
    rw [List.mem_singleton.mp h]
    exact .abnormal _ (by simpa [statusNormal, and_assoc] using hst)

theorem Exchange.appends {u v : State} {r : ResultCode} (h : Exchange u r v) : Appends u v := by
  obtain ⟨logs, hl, htr⟩ := h.logs
  refine ⟨logs, htr, fun e he => ?_⟩
  rcases hl with rfl | ⟨f, rfl⟩
  · simp at he
  · exact appendable_of_mem_responseLogs he

/-- A send appends its frame, which is the encoding that `cur` gets, whatever else was written before it. -/
theorem Appends.sent {u v w : State} {i : Instr} {f : Frame} (h : Appends u v) (htr : w.trace = v.trace)
    (hp : w.params = u.params) (hf : encode i = .frame f) (hwf : i.wf = true ∨ SendsCur u) : Appends u (sent f w) := by
  refine h.snoc (e := .wrReq (writeSetup u.params) f) ?_ (.writes i f hf hwf)
  rw [sent_trace, htr, hp, withChecksum_eq_self (checksum_of_encode hf)]

theorem Appends.sentBuilt {u v w : State} {f : Frame} (h : Appends u v) (htr : w.trace = v.trace)
    (hp : w.params = u.params) (hf : IsBuilt f) : Appends u (Machine.sent f w) := by
  obtain ⟨i, hwf, henc⟩ := hf
  exact h.sent htr hp henc (.inl hwf)

theorem Appends.commitReturn {u v w t : State} {r : ResultCode} (h : Appends u v)
    (ht : commitReturn r w = .next t) (hr : w.pc.routine ≠ .none) (htr : w.trace = v.trace) : Appends u t := by
  rcases commitReturn_cases hr ht with ⟨_, rfl⟩ | ⟨_, rfl⟩
  · exact h.snoc (by rw [initDone_trace, htr]) (.completes r)
  · exact h.snoc (by rw [commitDone_trace, htr]) (.completes r)

/-- Every move appends only such events. -/
theorem Move.appends {u t : State} (h : Move u t) : Appends u t := by
  have start : Appends u u := .refl u
  cases h with
  | waits => exact start
  | offline | turnedAway | cleanCommit | acquires | releases | setsFreq | setsX | setsY =>
    exact start.snoc rfl (.completes _)
  | setsLed => exact start.snoc (by simp) (.completes .ok)
  | commits => exact start.sentBuilt rfl rfl (isBuilt_resEncode _)
  | starts => exact start.sentBuilt rfl rfl isBuilt_fwqueryFrame
  | sendsCur hr hw he f i _ hf => exact start.sent rfl rfl hf (.inr ⟨hr, hw, he⟩)
  | written | rereads => exact start.snoc rfl .reads
  | sleeps _ _ _ _ v hv => exact hv.appends.snoc rfl .sleeps
  | wakes => exact start.sentBuilt rfl rfl isBuilt_fwqueryFrame
  | probeEnds _ _ _ _ v _ hv ht => exact eq_of_initFinish ht ▸ hv.appends.snoc rfl (.completes _)
  | probed _ _ hw b hb _ => exact (Exchange.response hw b hb).appends.sentBuilt (by simp) (by simp) (isBuilt_resEncode u.conf)
  | nextLed _ _ _ _ _ v hv => exact hv.appends.sentBuilt rfl hv.params (isBuilt_ledFrame _ _ _)
  | toFreq _ _ _ _ _ hc v hv => exact hv.appends.sentBuilt rfl hv.params (isBuilt_freqsetFrame hc)
  | badFreq hr _ _ _ _ v _ hv ht => exact hv.appends.commitReturn ht (by simpa [hv.pc] using hr) rfl
  | ends hr _ _ v _ hv ht => exact hv.appends.commitReturn ht (by rwa [hv.pc]) rfl
  | nowhere _ _ _ _ hv => exact hv.appends

/-- From a legal position each of these events is one the block may append. -/
theorem Appendable.eventOk {u : State} {e : Event} (h : Appendable u e) (hp : Position u) : eventOk u.params e = true := by
  cases h with
  | writes i f hf hwf =>
    have hi : i.wf = true := hwf.resolve_right fun ⟨hr, hw, he⟩ => he (hp.eq_entry hr hw)
    simp [Safety.eventOk, checksum_of_encode hf, decodeFrame_of_encode hf, hf, hi]
  | reads => simp [Safety.eventOk]
  | sleeps => rfl
  | mismatch computed received h => simpa [Safety.eventOk] using h
  | abnormal status h => simp [Safety.eventOk, h]
  | completes r => rfl

/-- Settles O40: a RESET empties the trace, and a move appends only what it may. -/
theorem everyEventIsOneTheBlockMayAppend : Obligations.EveryEventIsOneTheBlockMayAppend := by
  intro s t hp hs h
  rcases step_next_cases h with ⟨gen, thumb, rest, _, rfl⟩ | ⟨e, hm⟩
  · rfl
  · have pos : Position (withEnv s e) := position_of_positionOk hp
    obtain ⟨es, htr, hes⟩ := hm.appends
    have htr' : t.trace = s.trace ++ es := htr
    have hparams : t.params = s.params := hm.keeps.params
    rw [traceOk, htr', hparams, List.all_append, Bool.and_eq_true]
    exact ⟨hs, List.all_eq_true.mpr fun x hx => (hes x hx).eventOk pos⟩

/-! ## The frames of a step -/

theorem mem_framesWritten {f : Frame} {es : List Event} (h : f ∈ framesWritten es) : ∃ setup, .wrReq setup f ∈ es := by
  induction es with
  | nil => simp [framesWritten] at h
  | cons e es ih =>
    have later : f ∈ framesWritten es → ∃ setup, .wrReq setup f ∈ e :: es := fun h =>
      (ih h).imp fun _ => List.mem_cons_of_mem e
    cases e with
    | wrReq setup g =>
      rcases List.mem_cons.mp h with rfl | h
      · exact ⟨setup, List.mem_cons_self⟩
      · exact later h
    | _ => exact later h

/-- Settles O41: what a move writes is an encoding, from whatever position. -/
theorem everyFrameWrittenMeetsTheSendConstraints : Obligations.EveryFrameWrittenMeetsTheSendConstraints := by
  intro s t hn h
  obtain ⟨e, hm⟩ := move_of_step hn h
  obtain ⟨es, htr, hes⟩ := hm.appends
  refine ⟨es, htr, fun f hf => ?_⟩
  obtain ⟨setup, hmem⟩ := mem_framesWritten hf
  cases hes _ hmem with
  | writes i f henc _ =>
    obtain ⟨hfixed, hl⟩ := decodeFrame_eq_ok_iff.mp (decodeFrame_of_encode henc)
    obtain ⟨h0, hA, hB, hC⟩ := fixedBytesZero_iff.mp hfixed
    exact ⟨h0, hA, hB, hC, (checksum_of_encode henc).symm, ids_mem_of_frameLayout hl⟩

end Sys2Proof.Machine
end

section
/-! What the block reads of a response: its logs, and to the probe its first two value bytes (R73, R76). -/

namespace Sys2Proof.Machine

open Sys2Proof.Safety

/-! ## Runs that differ in RX alone -/

/-- The state with another RX. -/
def withRx (s : State) (m : Memory) : State := { s with rx := m }

@[simp] theorem withRx_pc (s : State) (m : Memory) : (withRx s m).pc = s.pc := rfl
@[simp] theorem withRx_conf (s : State) (m : Memory) : (withRx s m).conf = s.conf := rfl
@[simp] theorem withRx_micro (s : State) (m : Memory) : (withRx s m).micro = s.micro := rfl
@[simp] theorem withRx_params (s : State) (m : Memory) : (withRx s m).params = s.params := rfl
@[simp] theorem withRx_rx (s : State) (m : Memory) : (withRx s m).rx = m := rfl

/-- A send leaves RX as it is (R129). -/
theorem sent_withRx (f : Frame) (s : State) (m : Memory) : sent f (withRx s m) = withRx (sent f s) m := rfl

/-- A piece of the sequencer that neither reads RX nor writes it. -/
def IgnoresRx (run : State → Out) : Prop :=
  ∀ (s t : State) (m : Memory), run s = .next t → run (withRx s m) = .next (withRx t m)

theorem ignoresRx_commitReturn (r : ResultCode) : IgnoresRx (commitReturn r) := by
  intro s t m h
  unfold commitReturn at h ⊢
  rw [withRx_pc]
  cases hr : s.pc.routine with
  | init => rw [hr] at h; cases eq_of_initFinish h; rfl
  | commit => rw [hr] at h; cases eq_of_commitFinish h; rfl
  | none => rw [hr] at h; cases h; rfl

theorem ignoresRx_enterFreq : IgnoresRx enterFreq := by
  intro s t m h
  rw [enterFreq_eq] at h ⊢
  rw [withRx_conf]
  cases hc : freqByte s.conf.freq with
  | some c =>
    rw [hc] at h
    cases h
    exact congrArg Host.Outcome.next (sent_withRx (freqsetFrame c) (setStage .freq s) m)
  | none => rw [hc] at h; exact ignoresRx_commitReturn .invalidArgument (setStage .freq s) t m h

theorem ignoresRx_ledLoop (i : Nat) : IgnoresRx (ledLoop i) := by
  intro s t m h
  rw [ledLoop_eq] at h ⊢
  rw [withRx_conf, withRx_params]
  cases hk : (ledList s.conf).find? (fun k => decide (i ≤ k)) with
  | some k =>
    rw [hk] at h
    cases h
    exact congrArg Host.Outcome.next (sent_withRx (ledFrame s.params s.conf k) (setLedIndex k s) m)
  | none => rw [hk] at h; exact ignoresRx_enterFreq (setLedIndex ledCount s) t m h

theorem ignoresRx_probeFailed : IgnoresRx probeFailed := by
  intro s t m h
  rw [probeFailed_eq] at h ⊢
  rw [withRx_micro]
  split at h
  next ha => rw [if_pos ha]; cases h; rfl
  next ha => rw [if_neg ha]; cases eq_of_initFinish h; rfl

/-- The probe reads RX[8] and RX[9] alone (R161, R162). -/
theorem probeAnswered_withRx {s t : State} {m : Memory} {b c : List Byte}
    (hs : Memory.readBytes s.rx 0 frameLen = some b) (hm : Memory.readBytes m 0 frameLen = some c)
    (h8 : byteAt (frameOf b) 8 = byteAt (frameOf c) 8) (h9 : byteAt (frameOf b) 9 = byteAt (frameOf c) 9)
    (h : probeAnswered s = .next t) : probeAnswered (withRx s m) = .next (withRx t m) := by
  rw [probeAnswered_eq hs] at h
  rw [probeAnswered_eq (s := withRx s m) hm, ← h8, ← h9]
  split at h
  next hz => rw [if_pos hz]; exact ignoresRx_probeFailed s t m h
  next hz =>
    rw [if_neg hz]
    cases h
    exact congrArg Host.Outcome.next (sent_withRx (resEncode s.conf) (setStage .res (setForce true
      { s with fwver := be16 (byteAt (frameOf b) 8) (byteAt (frameOf b) 9) })) m)

/-- What follows a response depends on RX only through RX[8] and RX[9]. -/
theorem commandReturn_withRx {s t : State} {m : Memory} {b c : List Byte} (h : commandReturn .ok s = .next t)
    (hs : Memory.readBytes s.rx 0 frameLen = some b) (hm : Memory.readBytes m 0 frameLen = some c)
    (h8 : byteAt (frameOf b) 8 = byteAt (frameOf c) 8) (h9 : byteAt (frameOf b) 9 = byteAt (frameOf c) 9) :
    commandReturn .ok (withRx s m) = .next (withRx t m) := by
  unfold commandReturn at h ⊢
  rw [withRx_pc]
  cases hst : s.pc.stage <;> rw [hst] at h <;> simp only [if_true] at h ⊢
  case absent => cases h; rfl
  case probe => exact probeAnswered_withRx hs hm h8 h9 h
  case res => exact ignoresRx_ledLoop 0 (setStage .led s) t m h
  case led => exact ignoresRx_ledLoop (s.micro.led + 1) s t m h
  case freq => exact ignoresRx_commitReturn .ok s t m h

/-! ## Two responses -/

/-- The logs of a response are all it changes besides RX (R130, R131). -/
theorem logs_eq (f : Frame) (s : State) :
    logStatus f (logChecksum f s) = { s with trace := s.trace ++ responseLogs f } := by
  have htrace : (logStatus f (logChecksum f s)).trace = s.trace ++ responseLogs f := by
    rw [logStatus_trace, logChecksum_trace, List.append_assoc]; rfl
  rw [← htrace]
  unfold logStatus logChecksum
  split <;> split <;> rfl

/-- The logs depend on the status, the checksum byte and the checksum (R130, R131). -/
theorem responseLogs_congr {f g : Frame} (h0 : byteAt f 0 = byteAt g 0) (h88 : byteAt f 88 = byteAt g 88)
    (hck : checksum f = checksum g) : responseLogs f = responseLogs g := by
  unfold responseLogs
  rw [h0, h88, hck]

/-- A whole response of other unchecked bytes leads to the same state but for RX. -/
theorem onReadAnswer_congr {u t : State} {b c : List Byte} (hb : b.length = frameLen) (hc : c.length = frameLen)
    (heq : ∀ i, i = 0 ∨ i = 8 ∨ i = 9 ∨ i = 88 → byteAt (frameOf b) i = byteAt (frameOf c) i)
    (hck : checksum (frameOf b) = checksum (frameOf c)) (h : onReadAnswer (.returned b) u = .next t) :
    ∃ m, onReadAnswer (.returned c) u = .next (withRx t m) := by
  have hlogs := responseLogs_congr (heq 0 (by simp)) (heq 88 (by simp)) hck
  have hstate : logStatus (frameOf c) (logChecksum (frameOf c) (received c u)) =
      withRx (logStatus (frameOf b) (logChecksum (frameOf b) (received b u))) (received c u).rx := by
    rw [logs_eq, logs_eq, hlogs]
    rfl
  rw [onReadAnswer_returned hb] at h
  rw [onReadAnswer_returned hc, hstate]
  exact ⟨(received c u).rx, commandReturn_withRx h (by simpa using readBytes_received hb u) (readBytes_received hc u)
    (heq 8 (by simp)) (heq 9 (by simp))⟩

/-- With no RESET and the port not ready the step is the sequencer's, and what it takes off the host's tape does not depend on
the other tapes (R190). -/
theorem step_withEnv_quiet {s : State} (hn : noReset s = true) (hp : portReady s = false) :
    ∃ moves, ∀ e : Env, e.host = s.env.host → step (withEnv s e) = sequencerMove (withEnv s { e with host := moves }) := by
  have waits : ∀ e w rest, e.host = .word w :: rest → step (withEnv s e) = sequencerMove (withEnv s e) := by
    intro e w rest he
    have hport : portReady (withEnv s e) = false := hp
    have hhost : (withEnv s e).env.host = .word w :: rest := he
    simp [step, machineStep, hhost, hport]
  cases hh : s.env.host with
  | nil => exact ⟨[], fun e he => by cases e; cases he; rfl⟩
  | cons move rest =>
    cases move with
    | reset gen thumb => simp [noReset, hh] at hn
    | pause => exact ⟨rest, fun e he => by cases e; cases he; rfl⟩
    | word w => exact ⟨.word w :: rest, fun e he => by rw [waits e w rest he, ← he]⟩

/-- Settles O52: the two steps take the same answer off the tape, and what follows it agrees. -/
theorem uncheckedResponseBytesHaveNoEffect : Obligations.UncheckedResponseBytesHaveNoEffect := by
  intro s t b c rest hn hp hr hw hb hc heq hck h
  obtain ⟨moves, hstep⟩ := step_withEnv_quiet hn hp
  have taken : ∀ a, step { s with env := { s.env with reads := a :: rest } } =
      onReadAnswer a (withEnv s { s.env with host := moves, reads := rest }) := fun a =>
    (hstep { s.env with reads := a :: rest } rfl).trans
      (sequencerMove_read (s := withEnv s { s.env with host := moves, reads := a :: rest }) hr hw rfl)
  rw [taken] at h
  obtain ⟨m, hm⟩ := onReadAnswer_congr hb hc heq hck h
  exact ⟨m, (taken _).trans hm⟩

end Sys2Proof.Machine
end

section
/-! The codec: which bytes the checksum covers, the layout ENCODE gives and the fields DECODE reads back (R100 to R103). -/

namespace Sys2Proof.Machine

/-! ## The bytes the checksum covers (R100) -/

/-- The XOR of the bytes of f at the listed offsets. -/
def xorBytes (f : Frame) : List Nat → Byte
  | [] => 0#8
  | i :: l => byteAt f i ^^^ xorBytes f l

/-- The running XOR of CHECKSUM is its starting value and the bytes passed over. -/
theorem foldl_xor_eq_xorBytes (f : Frame) (l : List Nat) (c : Byte) :
    l.foldl (fun c i => c ^^^ byteAt f i) c = c ^^^ xorBytes f l := by
  induction l generalizing c with
  | nil => exact BitVec.xor_zero.symm
  | cons i l ih => rw [List.foldl_cons, ih, BitVec.xor_assoc, xorBytes]

theorem checksum_eq_xorBytes (f : Frame) : checksum f = xorBytes f (List.range' 2 86) :=
  (foldl_xor_eq_xorBytes f _ _).trans BitVec.zero_xor

theorem xorBytes_setByte_of_notMem {f : Frame} {i : Nat} {b : Byte} (hi : i < 90) {l : List Nat} (h : i ∉ l) :
    xorBytes (setByte f i b) l = xorBytes f l := by
  induction l with
  | nil => rfl
  | cons j l ih =>
    obtain ⟨hij, hl⟩ := List.ne_and_not_mem_of_not_mem_cons h
    rw [xorBytes, xorBytes, ih hl, byteAt_setByte _ _ _ _ hi, if_neg hij]

/-- Where an offset is listed once, the old byte there leaves the XOR and the new one enters it. -/
theorem xorBytes_setByte_of_mem {f : Frame} {i : Nat} {b : Byte} (hi : i < 90) {l : List Nat} (hl : l.Nodup) (h : i ∈ l) :
    xorBytes (setByte f i b) l = xorBytes f l ^^^ byteAt f i ^^^ b := by
  induction l with
  | nil => cases h
  | cons j l ih =>
    obtain ⟨hjl, hl⟩ := List.nodup_cons.mp hl
    rw [xorBytes, xorBytes, byteAt_setByte _ _ _ _ hi]
    by_cases hij : i = j
    · subst hij
      rw [if_pos rfl, xorBytes_setByte_of_notMem hi hjl, BitVec.xor_comm (byteAt f i), BitVec.xor_assoc (xorBytes f l),
        BitVec.xor_self, BitVec.xor_zero, BitVec.xor_comm]
    · have htail : i ∈ l := (List.mem_cons.mp h).resolve_left hij
      rw [if_neg hij, ih hl htail]
      simp only [BitVec.xor_assoc]

/-- Settles O8: the offsets 2..87 are listed once each, and no other is. -/
theorem checksumCoversExactlyBytes2To87 : Obligations.ChecksumCoversExactlyBytes2To87 := by
  intro f i b hi
  split
  · next hin =>
    rw [checksum_eq_xorBytes, checksum_eq_xorBytes]
    exact xorBytes_setByte_of_mem hi List.nodup_range' (List.mem_range'_1.mpr (by omega))
  · next hout => exact checksum_setByte (by omega) hi

/-! ## What ENCODE builds and DECODE reads back (R101 to R103) -/

/-- The checksum byte ENCODE writes is right (R102, R104). -/
theorem checksum_encodeFrame (cmd req : BitVec 16) (v : Values) :
    checksum (encodeFrame cmd req v) = byteAt (encodeFrame cmd req v) 88 :=
  beq_iff_eq.mp (Laws.WireFormat.encodeFrame_checked cmd req v).1

/-- Settles O6: the layout byte by byte, and the checksum byte over it. -/
theorem encodeGivesTheFrameLayout : Obligations.EncodeGivesTheFrameLayout := fun cmd req v =>
  ⟨isFrame_encodeFrame cmd req v, checksum_encodeFrame cmd req v⟩

/-- A slice whose bytes are all 0 is a row of zeros. -/
theorem slice_eq_replicate_zero {f : Frame} {a n : Nat} (hn : a + n ≤ 90) (h : ∀ i, a ≤ i → i < a + n → byteAt f i = 0#8) :
    slice f a n = List.replicate n 0#8 := by
  have hlen : (slice f a n).length = n := by
    rw [slice, List.length_take, List.length_drop, f.len, frameLen]
    omega
  refine List.eq_replicate_iff.mpr ⟨hlen, fun b hb => ?_⟩
  obtain ⟨i, h1, h2, rfl⟩ := mem_slice hb
  exact h i h1 h2

/-- Where a frame keeps status and padding 0, DECODE gives them as zeros (R72, R103). -/
theorem decodeFields_padding {f : Frame} (h : fixedBytesZero f = true) :
    (decodeFields f).status = 0#8 ∧ (decodeFields f).padA = List.replicate 3 0#8 ∧
      (decodeFields f).padB = List.replicate 75 0#8 ∧ (decodeFields f).padC = 0#8 := by
  obtain ⟨hstatus, hA, hB, hC⟩ := fixedBytesZero_iff.mp h
  exact ⟨hstatus, slice_eq_replicate_zero (by decide) fun i h1 h2 => hA i h1 (by omega),
    slice_eq_replicate_zero (by decide) fun i h1 h2 => hB i h1 (by omega), hC⟩

/-- DECODE reads back the operands of ENCODE (R103). -/
theorem decodeFields_operands (cmd req : BitVec 16) (v : Values) :
    (decodeFields (encodeFrame cmd req v)).cmd = cmd ∧ (decodeFields (encodeFrame cmd req v)).req = req ∧
      (decodeFields (encodeFrame cmd req v)).values = v := by
  simp [decodeFields, byteAt_encodeFrame, byteAt_encodeBody]

/-- Settles O7: the padding is that of every encoding, the operands lie at their offsets, and the checksum byte is right. -/
theorem decodeFieldsOfEncodeReturnsTheOperands : Obligations.DecodeFieldsOfEncodeReturnsTheOperands := by
  intro cmd req v
  obtain ⟨hstatus, hA, hB, hC⟩ := decodeFields_padding (Laws.WireFormat.encodeFrame_checked cmd req v).2
  obtain ⟨hcmd, hreq, hvalues⟩ := decodeFields_operands cmd req v
  exact ⟨hstatus, hA, hcmd, hreq, hvalues, hB, (checksum_encodeFrame cmd req v).symm, hC⟩

end Sys2Proof.Machine
end

section
/-! One answer taken: the step goes on with its meaning. A write accepted whole and a failed read lead to a read attempt, the
timer's answer to the next probe attempt (R122 to R124, R127 to R129, R161). -/

namespace Sys2Proof.Machine

open Sys2Proof.Safety

/-! ## The answer a step takes -/

/-- With a write outstanding and its answer come, the step is that answer's meaning (R120, R190). -/
theorem step_writeAnswer {s : State} {a : WriteAnswer} {rest : List WriteAnswer} (hn : noReset s = true)
    (hp : portReady s = false) (hr : s.pc.routine ≠ .none) (hw : s.pc.wait = .write) (hq : s.env.writes = a :: rest) :
    ∃ moves, step s = onWriteAnswer a (withEnv s { s.env with host := moves, writes := rest }) := by
  obtain ⟨moves, hstep⟩ := step_quiet hn hp
  exact ⟨moves, hstep.trans (sequencerMove_write (s := withEnv s { s.env with host := moves }) hr hw hq)⟩

/-- With a read outstanding and its answer come, the step is that answer's meaning (R121, R190). -/
theorem step_readAnswer {s : State} {a : ReadAnswer} {rest : List ReadAnswer} (hn : noReset s = true)
    (hp : portReady s = false) (hr : s.pc.routine ≠ .none) (hw : s.pc.wait = .read) (hq : s.env.reads = a :: rest) :
    ∃ moves, step s = onReadAnswer a (withEnv s { s.env with host := moves, reads := rest }) := by
  obtain ⟨moves, hstep⟩ := step_quiet hn hp
  exact ⟨moves, hstep.trans (sequencerMove_read (s := withEnv s { s.env with host := moves }) hr hw hq)⟩

/-- With a sleep outstanding and the timer's answer come, the step goes on from it (R124, R190). -/
theorem step_sleepDone {s : State} {n : Nat} (hn : noReset s = true) (hp : portReady s = false)
    (hr : s.pc.routine ≠ .none) (hw : s.pc.wait = .sleep) (hq : s.env.ticks = n + 1) :
    ∃ moves, step s = onSleepDone (withEnv s { s.env with host := moves, ticks := n }) := by
  obtain ⟨moves, hstep⟩ := step_quiet hn hp
  exact ⟨moves, hstep.trans (sequencerMove_sleep (s := withEnv s { s.env with host := moves }) hr hw hq)⟩

/-- An answer that is not exactly 90 bytes is a failed read (R123). -/
theorem readBytesOf_eq_none_of_not_fullRead {a : ReadAnswer} (h : ¬fullRead a) : readBytesOf a = none :=
  (readAnswer_cases a).resolve_left h

/-! ## Read attempts -/

/-- Attempt n of a read is issued: the request, the wait for it and the attempt counter are all that differs from s, the
tapes apart (R121, R128). -/
structure ReadAttempt (n : Nat) (s t : State) : Prop where
  pc : t.pc = { s.pc with wait := .read }
  micro : t.micro = { s.micro with rattempt := n }
  trace : t.trace = s.trace ++ [.rdReq (readShape s.params.readReq)]
  registers : sameRegisters s t
  buffers : sameBuffers s t

theorem readAttempt_xferRead (n : Nat) (s : State) (e : Env) :
    ReadAttempt n s (xferRead (setRattempt n (withEnv s e))) where
  pc := rfl
  micro := rfl
  trace := rfl
  registers := ⟨rfl, rfl, rfl, rfl, rfl, rfl, rfl, rfl⟩
  buffers b _ := by cases b <;> rfl

/-- Settles O26: `Accepted(90)` succeeds, and the first read attempt is issued. -/
theorem acceptedWriteIsFollowedByARead : Obligations.AcceptedWriteIsFollowedByARead := by
  intro s rest hn hp hr hw hq
  obtain ⟨moves, hstep⟩ := step_writeAnswer hn hp hr hw hq
  obtain ⟨hpc, hmicro, htrace, hregs, hbufs⟩ :=
    readAttempt_xferRead 1 s { s.env with host := moves, writes := rest }
  have hsucc : writeSucceeds (.accepted 90) = true := (writeSucceeds_iff _).mpr rfl
  rw [onWriteAnswer, if_pos hsucc] at hstep
  exact ⟨_, hstep, hpc, hmicro, htrace, hregs, hbufs, rfl, rfl, rfl⟩

/-- Settles O27: below the third attempt a failed read issues the next one; the position, waiting for a read, is the same. -/
theorem failedReadIsRepeatedUpToThreeAttempts : Obligations.FailedReadIsRepeatedUpToThreeAttempts := by
  intro s a rest hn hp hr hw hq hfail hlt
  obtain ⟨moves, hstep⟩ := step_readAnswer hn hp hr hw hq
  obtain ⟨hpc, hmicro, htrace, hregs, hbufs⟩ :=
    readAttempt_xferRead (s.micro.rattempt + 1) s { s.env with host := moves, reads := rest }
  have hsame : { s.pc with wait := .read } = s.pc := by rw [← hw]
  rw [onReadAnswer_failed (readBytesOf_eq_none_of_not_fullRead hfail)] at hstep
  exact ⟨_, hstep.trans (if_pos hlt), hpc.trans hsame, hmicro, htrace, hregs, hbufs, rfl, rfl, rfl⟩

/-! ## The next probe attempt -/

/-- Settles O31: the timer's answer counts the attempt and executes FWQUERY, which sends its frame (`exec_of_frameLayout`). -/
theorem timerAnswerStartsTheNextAttempt : Obligations.TimerAnswerStartsTheNextAttempt := by
  intro s n hn hp hr hw hq
  obtain ⟨moves, hstep⟩ := step_sleepDone hn hp hr hw hq
  obtain ⟨t, f, hexec, hframe, htx, htrace, hpc, hmicro, hregs, henv⟩ :=
    exec_of_frameLayout (i := .fwquery) rfl
      (setPattempt (s.micro.pattempt + 1) (withEnv s { s.env with host := moves, ticks := n }))
  exact ⟨t, f, hstep.trans hexec, hframe, htx, htrace, hpc, hmicro, hregs, congrArg Env.ticks henv⟩

end Sys2Proof.Machine
end

section
/-! The resolution table and its two encoders (R140, R143, R144). -/

namespace Sys2Proof.Machine

/-- Entry k of the resolution table, in the spec's form (R140). -/
theorem res_eq (k : Nat) : res k = 100 * (k + 1) := by
  simp only [res, resBase, resStep]
  omega

/-- The legacy byte of entry k is 4 * k, truncated; off-table cursors too (R143, R146). -/
theorem legacyByte_res (k : Nat) : legacyByte (res k) = BitVec.ofNat 8 (4 * k) := by
  have hindex : res k / resStep - 1 = k := by
    simp only [res_eq, resStep]
    omega
  rw [legacyByte, hindex, Nat.mul_comm]

/-- One byte holds the legacy value of cursors below 64, so the truncation loses nothing over the Legacy table (R143). -/
theorem legacyByte_res_toNat {k : Nat} (hk : k < 64) : (legacyByte (res k)).toNat = 4 * k := by
  have hfits : 4 * k < 2 ^ 8 := by omega
  rw [legacyByte_res, BitVec.toNat_ofNat, Nat.mod_eq_of_lt hfits]

/-- A resolution below 65536 is its own extended word (R144). -/
theorem extWord_toNat {r : Nat} (hr : r < 2 ^ 16) : (extWord r).toNat = r := by
  rw [extWord, BitVec.toNat_ofNat, Nat.mod_eq_of_lt hr]

/-- Settles O57: the Legacy cursors stay below 64 (`legacyByte_res_toNat`); the Extended resolutions stay below 65536
(`extWord_toNat`), and a word's two bytes are the word again (`hi8_lo8_toNat`). -/
theorem resolutionTableEncodesWithoutLoss : Obligations.ResolutionTableEncodesWithoutLoss := by
  refine ⟨fun k hk => ⟨res_eq k, legacyByte_res_toNat (by omega)⟩, fun k hk => ⟨res_eq k, ?_⟩⟩
  have hfits : res k < 2 ^ 16 := by
    rw [res_eq]
    omega
  rw [hi8_lo8_toNat, extWord_toNat hfits, res_eq]

end Sys2Proof.Machine
end

section
/-! The probe (R161, R163): what its trace holds while it runs, and at its end. -/

namespace Sys2Proof.Machine

open Sys2Proof.Safety

/-! ## The frames and sleeps of a trace -/

theorem sleepsRequested_append (es fs : List Event) :
    sleepsRequested (es ++ fs) = sleepsRequested es ++ sleepsRequested fs := by
  induction es with
  | nil => rfl
  | cons e es ih => cases e <;> simp [sleepsRequested, ih]

theorem IsLogs.sleepsRequested {logs : List Event} (h : IsLogs logs) : sleepsRequested logs = [] := by
  rcases h with rfl | ⟨f, rfl⟩
  · rfl
  · rw [responseLogs, sleepsRequested_append]
    split <;> split <;> rfl

theorem framesMatch_append {ps qs : List (Frame → Prop)} {fs gs : List Frame} (h : framesMatch ps fs)
    (h' : framesMatch qs gs) : framesMatch (ps ++ qs) (fs ++ gs) := by
  induction ps generalizing fs with
  | nil => cases fs with
    | nil => exact h'
    | cons f fs => exact h.elim
  | cons p ps ih => cases fs with
    | nil => exact h.elim
    | cons f fs =>
      obtain ⟨hf, hfs⟩ := h
      exact ⟨hf, ih hfs⟩

/-- A trace of `writes` FWQUERY frames and `sleeps` sleeps of 250 ms, and no others (R160, R161). -/
structure ProbeTrace (writes sleeps : Nat) (es : List Event) : Prop where
  frames : framesMatch (List.replicate writes isQueryFrame) (framesWritten es)
  slept : sleepsRequested es = List.replicate sleeps 250

theorem probeTrace_nil : ProbeTrace 0 0 [] := ⟨trivial, rfl⟩

/-- Events that are neither a write nor a sleep count for nothing. -/
theorem ProbeTrace.append {writes sleeps : Nat} {es fs : List Event} (h : ProbeTrace writes sleeps es)
    (hf : framesWritten fs = []) (hz : sleepsRequested fs = []) : ProbeTrace writes sleeps (es ++ fs) :=
  ⟨by rw [framesWritten_append, hf, List.append_nil]; exact h.frames,
    by rw [sleepsRequested_append, hz, List.append_nil]; exact h.slept⟩

/-- One more attempt. -/
theorem ProbeTrace.query {writes sleeps : Nat} {es : List Event} (h : ProbeTrace writes sleeps es) (setup : Setup) :
    ProbeTrace (writes + 1) sleeps (es ++ [.wrReq setup fwqueryFrame]) := by
  refine ⟨?_, by rw [sleepsRequested_append]; exact (List.append_nil _).trans h.slept⟩
  rw [framesWritten_append, List.replicate_succ']
  exact framesMatch_append h.frames ⟨isFrame_encodeFrame _ _ _, trivial⟩

/-- One more sleep. -/
theorem ProbeTrace.sleep {writes sleeps : Nat} {es : List Event} (h : ProbeTrace writes sleeps es) :
    ProbeTrace writes (sleeps + 1) (es ++ [.sleepReq 250]) :=
  ⟨by simpa [framesWritten_append, framesWritten] using h.frames,
    by rw [sleepsRequested_append, h.slept, List.replicate_succ']; rfl⟩

/-! ## What the probe's trace holds -/

/-- `probeCountsOk` in a wait of attempt n: n writes, and a sleep for each attempt that failed (R161, R163). -/
theorem probeTrace_of_probeCountsOk {s : State} (h : probeCountsOk s) (hp : s.phase = .init) (hs : s.pc.stage = .probe)
    (hw : s.pc.wait ≠ .none) :
    ProbeTrace s.micro.pattempt (if s.pc.wait = .sleep then s.micro.pattempt else s.micro.pattempt - 1) s.trace := by
  have hcounts := h hp hs
  rw [if_neg hw] at hcounts
  obtain ⟨hframes, hslept⟩ := hcounts
  exact ⟨hframes, hslept⟩

theorem probeCountsOk_of_probeTrace {s : State} {sleeps : Nat} (h : ProbeTrace s.micro.pattempt sleeps s.trace)
    (hw : s.pc.wait ≠ .none)
    (hn : sleeps = if s.pc.wait = .sleep then s.micro.pattempt else s.micro.pattempt - 1) : probeCountsOk s := by
  intro _ _
  rw [if_neg hw]
  exact ⟨h.frames, hn ▸ h.slept⟩

/-- The probe runs in t only if it ran before the move (R170). -/
theorem Control.probing {u t : State} (h : Control u t) (hp : Position u) (hphase : t.phase = .init)
    (hstage : t.pc.stage = .probe) : u.phase = .init ∧ u.pc.stage = .probe := by
  cases h with
  | stays h hpc => exact ⟨h ▸ hphase, hpc ▸ hstage⟩
  | starts he => exact ⟨hp.phase_of_init (by rw [he]; rfl), by rw [he]; rfl⟩
  | commits _ _ h => rw [h] at hphase; cases hphase
  | reads g hpc | sleeps g _ hpc | wakes g _ hpc => exact ⟨g.phase ▸ hphase, by simpa [hpc] using hstage⟩
  | probed _ _ hpc | toLed _ _ hpc | toFreq _ _ hpc => simp [hpc] at hstage
  | initEnds _ _ _ _ _ hpc | commitEnds _ _ _ hpc => rw [hpc] at hstage; cases hstage

/-- Everything a move can do to the probe that runs in u. -/
inductive ProbeMove (u t : State) : Prop
  | waits (h : t = u)
  | starts (h : u.pc.wait = .none) (htr : t.trace = u.trace ++ [.wrReq (writeSetup u.params) fwqueryFrame])
      (hn : t.micro.pattempt = 1) (hw : t.pc.wait = .write)
  | reads (h : u.pc.wait = .write ∨ u.pc.wait = .read) (htr : t.trace = u.trace ++ [.rdReq (readSetup u.params)])
      (hn : t.micro.pattempt = u.micro.pattempt) (hw : t.pc.wait = .read)
  | sleeps (h : u.pc.wait = .write ∨ u.pc.wait = .read) (logs : List Event) (hl : IsLogs logs)
      (htr : t.trace = u.trace ++ logs ++ [.sleepReq 250]) (hn : t.micro.pattempt = u.micro.pattempt)
      (hw : t.pc.wait = .sleep)
  | wakes (h : u.pc.wait = .sleep) (htr : t.trace = u.trace ++ [.wrReq (writeSetup u.params) fwqueryFrame])
      (hn : t.micro.pattempt = u.micro.pattempt + 1) (hw : t.pc.wait = .write)
  | givesUp (h : u.pc.wait = .write ∨ u.pc.wait = .read) (ha : ¬u.micro.pattempt < 5) (logs : List Event)
      (hl : IsLogs logs) (htr : t.trace = u.trace ++ logs ++ [.done .deviceNotResponding]) (hres : t.result = 2#8)
      (hphase : t.phase = .offline)
  | succeeds (hphase : t.phase = .init) (hs : t.pc.stage = .res)

/-- A move while the probe runs is one of these (R161, R170). -/
theorem Move.probeMove {u t : State} (hm : Move u t) (hp : Position u) (hi : u.phase = .init) (hs : u.pc.stage = .probe) :
    ProbeMove u t := by
  cases hm with
  | waits => exact .waits rfl
  | starts he => exact .starts (by rw [he]; rfl) (by simp) (by simp) (by simp)
  | written _ hw => exact .reads (.inl hw) rfl rfl rfl
  | rereads _ hw _ => exact .reads (.inr hw) rfl rfl rfl
  | sleeps _ _ _ _ v hv =>
    obtain ⟨logs, hl, htr⟩ := hv.logs
    exact .sleeps hv.waiting logs hl (by simp [htr]) (by simp [hv.micro]) rfl
  | wakes _ hw => exact .wakes hw (by simp) (by simp) (by simp)
  | probeEnds _ _ ha _ v _ hv ht =>
    obtain ⟨logs, hl, htr⟩ := hv.logs
    cases eq_of_initFinish ht
    exact .givesUp hv.waiting ha logs hl (by simp [htr]) rfl rfl
  | probed => exact .succeeds (by simpa using hi) (by simp)
  | sendsCur hr hw he => exact absurd (hp.eq_entry hr hw) he
  | nextLed _ _ _ h | toFreq _ _ h | badFreq _ _ h => simp [hs] at h
  | ends _ _ h => simp [hs] at h
  | nowhere _ h => simp [hs] at h
  | offline h | turnedAway h | cleanCommit h | acquires h | releases h | setsLed h | setsFreq h | setsX h | setsY h
  | commits h => simp [hi] at h

/-- A failed attempt n has had n writes and n - 1 sleeps. -/
theorem probeTrace_of_exchanging {s : State} (h : probeCountsOk s) (hp : s.phase = .init) (hs : s.pc.stage = .probe)
    (hw : s.pc.wait = .write ∨ s.pc.wait = .read) :
    ProbeTrace s.micro.pattempt (s.micro.pattempt - 1) s.trace := by
  have hne : s.pc.wait ≠ .none ∧ s.pc.wait ≠ .sleep := by rcases hw with h | h <;> simp [h]
  simpa only [if_neg hne.2] using probeTrace_of_probeCountsOk h hp hs hne.1

/-- Every move of the probe keeps its counts (R163). -/
theorem ProbeMove.probeCountsOk {u t : State} (h : ProbeMove u t) (hc : Counters u) (hu : probeCountsOk u)
    (hp : u.phase = .init) (hs : u.pc.stage = .probe) : probeCountsOk t := by
  cases h with
  | waits h => exact h ▸ hu
  | starts h htr hn hw =>
    have hnil : u.trace = [] := by simpa [h] using hu hp hs
    refine probeCountsOk_of_probeTrace (sleeps := 0) ?_ (by simp [hw]) (by simp [hw, hn])
    rw [htr, hn, hnil]
    exact probeTrace_nil.query _
  | reads h htr hn hw =>
    refine probeCountsOk_of_probeTrace (sleeps := u.micro.pattempt - 1) ?_ (by simp [hw]) (by simp [hw, hn])
    rw [htr, hn]
    exact (probeTrace_of_exchanging hu hp hs h).append rfl rfl
  | sleeps h logs hl htr hn hw =>
    obtain ⟨hpos, -⟩ := hc.probing hs (by rcases h with h | h <;> simp [h])
    refine probeCountsOk_of_probeTrace (sleeps := u.micro.pattempt - 1 + 1) ?_ (by simp [hw]) (by simp [hw, hn]; omega)
    rw [htr, hn]
    exact ((probeTrace_of_exchanging hu hp hs h).append hl.framesWritten hl.sleepsRequested).sleep
  | wakes h htr hn hw =>
    refine probeCountsOk_of_probeTrace (sleeps := u.micro.pattempt) ?_ (by simp [hw]) (by simp [hw, hn])
    rw [htr, hn]
    simpa [h] using (probeTrace_of_probeCountsOk hu hp hs (by simp [h])).query _
  | givesUp _ _ _ _ _ _ hphase => intro hi; rw [hphase] at hi; cases hi
  | succeeds _ hres => intro _ hst; rw [hres] at hst; cases hst

/-- A move that takes the probe OFFLINE gives up after attempt 5: five writes, four sleeps, DeviceNotResponding (R163). -/
theorem ProbeMove.gaveUp {u t : State} (h : ProbeMove u t) (hc : Counters u) (hu : Safety.probeCountsOk u)
    (hp : u.phase = .init) (hs : u.pc.stage = .probe) (htp : Position t) (ht : t.phase = .offline) :
    ProbeTrace 5 4 t.trace ∧ t.result = 2#8 ∧ t.trace.getLast? = some (.done .deviceNotResponding) := by
  have hnone : t.pc.wait = .none := by rw [htp.pc_of_ready (.inr ht)]; rfl
  cases h with
  | waits h => rw [h, hp] at ht; cases ht
  | starts _ _ _ hw | reads _ _ _ hw | sleeps _ _ _ _ _ hw | wakes _ _ _ hw => rw [hnone] at hw; cases hw
  | givesUp h ha logs hl htr hres =>
    obtain ⟨-, hle⟩ := hc.probing hs (by rcases h with h | h <;> simp [h])
    have hfive : u.micro.pattempt = 5 := by omega
    have hcounts := probeTrace_of_exchanging hu hp hs h
    rw [hfive] at hcounts
    refine ⟨?_, hres, by simp [htr]⟩
    rw [htr]
    exact (hcounts.append hl.framesWritten hl.sleepsRequested).append rfl rfl
  | succeeds hphase => rw [hphase] at ht; cases ht

/-- Settles O44: what a move does to the probe that runs (`Move.probeMove`) keeps the counts, and only the fifth failed
attempt takes it OFFLINE; a RESET empties the trace. -/
theorem probeGivesUpAfterFiveAttemptsAndFourSleeps : Obligations.ProbeGivesUpAfterFiveAttemptsAndFourSleeps := by
  intro s t hinv hs h
  rcases step_next_cases h with ⟨gen, thumb, rest, hh, rfl⟩ | ⟨e, hm⟩
  · exact ⟨fun _ _ => rfl, fun hn => by simp [noReset, hh] at hn⟩
  · have hi : Invariant (withEnv s e) := (inv_iff _).mp hinv
    have hctl := hm.control hi.position
    refine ⟨fun hphase hstage => ?_, fun _ hphase hstage hoff => ?_⟩
    · obtain ⟨hp, hst⟩ := hctl.probing hi.position hphase hstage
      exact (hm.probeMove hi.position hp hst).probeCountsOk hi.counters hs hp hst hphase hstage
    · obtain ⟨⟨hframes, hslept⟩, hres, hlast⟩ :=
        (hm.probeMove hi.position hphase hstage).gaveUp hi.counters hs hphase hstage (hctl.position hi.position) hoff
      exact ⟨hframes, hslept, hres, hlast⟩

end Sys2Proof.Machine
end

section
/-! The frames of the commit sequence in the layout of the statements, and which of them comes next (R143, R144, R164 to
R167). -/

namespace Sys2Proof.Machine

open Sys2Proof.Safety

/-! ## The layout of each frame -/

theorem lo8_extWord (r : Nat) : lo8 (extWord r) = BitVec.ofNat 8 r := by
  apply BitVec.eq_of_toNat_eq
  simp only [lo8, extWord, BitVec.extractLsb'_toNat, BitVec.toNat_ofNat, Nat.shiftRight_zero]
  omega

theorem hi8_extWord (r : Nat) : hi8 (extWord r) = BitVec.ofNat 8 (r / 256) := by
  apply BitVec.eq_of_toNat_eq
  simp only [hi8, extWord, BitVec.extractLsb'_toNat, BitVec.toNat_ofNat, Nat.shiftRight_eq_div_pow]
  omega

/-- RESENCODE builds the RESSET frame of the cursors (R143, R144, R145). -/
theorem isResolutionFrame_resEncode (c : Conf) : isResolutionFrame c (resEncode c) := by
  unfold isResolutionFrame resEncode
  cases c.variant with
  | legacy =>
    simp only [← legacyByte_res]
    exact isFrame_encodeFrame _ _ _
  | extended =>
    simp only [← res_eq, ← lo8_extWord (res c.xmap.toNat), ← lo8_extWord (res c.ymap.toNat),
      ← hi8_extWord (res c.xmap.toNat), ← hi8_extWord (res c.ymap.toNat)]
    exact isFrame_encodeFrame _ _ _

theorem selOf_eq_selector (p : Params) {k : Nat} (h : k ≤ 2) : selOf p k = selector p k := by
  obtain rfl | rfl | rfl : k = 0 ∨ k = 1 ∨ k = 2 := by omega
  all_goals rfl

theorem isLedFrame_ledFrame (p : Params) (c : Conf) {k : Nat} (h : k ≤ 2) : isLedFrame p c k (ledFrame p c k) := by
  rw [isLedFrame, selOf_eq_selector p h, ledOf_eq_ledState c h]
  exact isFrame_encodeFrame _ _ _

/-- The codes of R26 that are not reserved have a frequency byte (R167). -/
theorem freqByte_of_known {code : BitVec 8} (h : code.toNat ≤ 3) :
    freqByte code = some (if code = 1#8 then 8#8 else if code = 2#8 then 2#8 else 1#8) := by
  obtain rfl | rfl | rfl | rfl : code = 0#8 ∨ code = 1#8 ∨ code = 2#8 ∨ code = 3#8 := by bv_omega
  all_goals rfl

theorem freqByte_of_reserved {code : BitVec 8} (h : ¬code.toNat ≤ 3) : freqByte code = none := by
  have hne : code ≠ 1#8 ∧ code ≠ 2#8 ∧ code ≠ 3#8 ∧ code ≠ 0#8 := by
    refine ⟨?_, ?_, ?_, ?_⟩ <;> rintro rfl <;> exact h (by decide)
  simp [freqByte, hne]

/-- Step 3 has a frame for the codes that are not reserved (R26, R167). -/
theorem exists_freqFrame {code : BitVec 8} (h : code.toNat ≤ 3) :
    ∃ c, freqByte code = some c ∧ isFreqFrame code (freqsetFrame c) :=
  ⟨_, freqByte_of_known h, isFrame_encodeFrame _ _ _⟩

/-! ## The LEDs still to be sent -/

theorem mem_supportedFrom {c : Conf} {i k : Nat} :
    k ∈ supportedFrom c i ↔ k ≤ 2 ∧ i ≤ k ∧ ledOf c k ≠ 0#2 := by
  simp only [supportedFrom, List.mem_filter, List.mem_cons, List.not_mem_nil, or_false, Bool.and_eq_true,
    decide_eq_true_eq, bne_iff_ne]
  exact and_congr_left fun _ => by omega

/-- The LED the loop sends first is the head of the supported ids (R166, R200). -/
theorem find_ledList_eq_head (c : Conf) (i : Nat) :
    (ledList c).find? (fun k => decide (i ≤ k)) = (supportedFrom c i).head? := by
  rw [ledList, supportedFrom, List.find?_filter, List.head?_filter]
  refine List.find?_congr fun k hk => ?_
  have hle : k ≤ 2 := Nat.le_of_lt_succ (List.mem_range.mp hk)
  rw [Bool.eq_iff_iff]
  simp [ledOf_eq_ledState c hle, ledUnsupported, and_comm]

/-- Past the first of the supported ids come the others (R166). -/
theorem supportedFrom_succ {c : Conf} {i k : Nat} {ks : List Nat} (h : supportedFrom c i = k :: ks) :
    supportedFrom c (k + 1) = ks := by
  obtain ⟨-, hik, -⟩ := mem_supportedFrom.mp (h ▸ List.mem_cons_self : k ∈ supportedFrom c i)
  have hsorted : (k :: ks).Pairwise (· < ·) := h ▸ List.Pairwise.filter _ (by decide)
  have hlater : supportedFrom c (k + 1) = (supportedFrom c i).filter fun j => decide (k + 1 ≤ j) := by
    rw [supportedFrom, supportedFrom, List.filter_filter]
    refine List.filter_congr fun j _ => ?_
    by_cases hj : k + 1 ≤ j
    · simp [hj, show i ≤ j by omega]
    · simp [hj]
  rw [hlater, h, List.filter_cons_of_neg (by simp), List.filter_eq_self]
  exact fun j hj => decide_eq_true (List.rel_of_pairwise_cons hsorted hj)

end Sys2Proof.Machine
end

section
/-! How an exchange ends and what its stage does next (R129, R161 to R173). -/

namespace Sys2Proof.Machine

open Sys2Proof.Safety

/-! ## The answer that ends an exchange -/

@[simp] theorem withEnv_phase (s : State) (e : Env) : (withEnv s e).phase = s.phase := rfl
@[simp] theorem withEnv_dirty (s : State) (e : Env) : (withEnv s e).dirty = s.dirty := rfl
@[simp] theorem withEnv_claimCnt (s : State) (e : Env) : (withEnv s e).claimCnt = s.claimCnt := rfl
@[simp] theorem withEnv_conf (s : State) (e : Env) : (withEnv s e).conf = s.conf := rfl
@[simp] theorem withEnv_thumbPresent (s : State) (e : Env) : (withEnv s e).thumbPresent = s.thumbPresent := rfl
@[simp] theorem withEnv_fwver (s : State) (e : Env) : (withEnv s e).fwver = s.fwver := rfl
@[simp] theorem withEnv_result (s : State) (e : Env) : (withEnv s e).result = s.result := rfl
@[simp] theorem withEnv_pc (s : State) (e : Env) : (withEnv s e).pc = s.pc := rfl
@[simp] theorem withEnv_micro (s : State) (e : Env) : (withEnv s e).micro = s.micro := rfl
@[simp] theorem withEnv_tx (s : State) (e : Env) : (withEnv s e).tx = s.tx := rfl
@[simp] theorem withEnv_params (s : State) (e : Env) : (withEnv s e).params = s.params := rfl
@[simp] theorem withEnv_rx (s : State) (e : Env) : (withEnv s e).rx = s.rx := rfl
@[simp] theorem withEnv_trace (s : State) (e : Env) : (withEnv s e).trace = s.trace := rfl
@[simp] theorem withEnv_env (s : State) (e : Env) : (withEnv s e).env = e := rfl

/-- An exchange that fails returns TransportError to its stage, and has changed nothing but the tapes (R129). -/
theorem step_of_exchangeFails {s : State} (hn : noReset s = true) (hp : portReady s = false)
    (hr : s.pc.routine ≠ .none) (h : exchangeFails s) :
    ∃ e, step s = commandReturn .transportError (withEnv s e) := by
  rcases h with ⟨hw, a, rest, hq, ha⟩ | ⟨hw, hlast, a, rest, hq, ha⟩
  · obtain ⟨moves, hstep⟩ := step_writeAnswer hn hp hr hw hq
    exact ⟨_, hstep.trans (if_neg (mt (writeSucceeds_iff a).mp ha))⟩
  · obtain ⟨moves, hstep⟩ := step_readAnswer hn hp hr hw hq
    rw [onReadAnswer_failed (readBytesOf_eq_none_of_not_fullRead ha)] at hstep
    exact ⟨_, hstep.trans (if_neg (Nat.not_lt.mpr hlast))⟩

/-- The state in which a whole response bs leaves the block: it is in RX, and what was wrong with it is logged (R123, R129). -/
def responded (bs : List Byte) (s : State) : State :=
  { s with rx := Memory.writeBytes s.rx 0 bs, trace := s.trace ++ responseLogs (frameOf bs) }

@[simp] theorem responded_phase (bs : List Byte) (s : State) : (responded bs s).phase = s.phase := rfl
@[simp] theorem responded_dirty (bs : List Byte) (s : State) : (responded bs s).dirty = s.dirty := rfl
@[simp] theorem responded_claimCnt (bs : List Byte) (s : State) : (responded bs s).claimCnt = s.claimCnt := rfl
@[simp] theorem responded_conf (bs : List Byte) (s : State) : (responded bs s).conf = s.conf := rfl
@[simp] theorem responded_thumbPresent (bs : List Byte) (s : State) : (responded bs s).thumbPresent = s.thumbPresent := rfl
@[simp] theorem responded_fwver (bs : List Byte) (s : State) : (responded bs s).fwver = s.fwver := rfl
@[simp] theorem responded_result (bs : List Byte) (s : State) : (responded bs s).result = s.result := rfl
@[simp] theorem responded_pc (bs : List Byte) (s : State) : (responded bs s).pc = s.pc := rfl
@[simp] theorem responded_micro (bs : List Byte) (s : State) : (responded bs s).micro = s.micro := rfl
@[simp] theorem responded_tx (bs : List Byte) (s : State) : (responded bs s).tx = s.tx := rfl
@[simp] theorem responded_params (bs : List Byte) (s : State) : (responded bs s).params = s.params := rfl
@[simp] theorem responded_env (bs : List Byte) (s : State) : (responded bs s).env = s.env := rfl
@[simp] theorem responded_rx (bs : List Byte) (s : State) : (responded bs s).rx = Memory.writeBytes s.rx 0 bs := rfl
@[simp] theorem responded_trace (bs : List Byte) (s : State) :
    (responded bs s).trace = s.trace ++ responseLogs (frameOf bs) := rfl

theorem onReadAnswer_full {bs : List Byte} (hb : bs.length = frameLen) (s : State) :
    onReadAnswer (.returned bs) s = commandReturn .ok (responded bs s) := by
  rw [onReadAnswer_returned hb, logs_eq]
  rfl

/-- A whole response returns OK to its stage (R129). -/
theorem step_of_response {s : State} {bs : List Byte} {rest : List ReadAnswer} (hn : noReset s = true)
    (hp : portReady s = false) (hr : s.pc.routine ≠ .none) (hw : s.pc.wait = .read)
    (hq : s.env.reads = .returned bs :: rest) (hb : bs.length = frameLen) :
    ∃ e, step s = commandReturn .ok (responded bs (withEnv s e)) ∧ e.reads = rest ∧ e.writes = s.env.writes := by
  obtain ⟨moves, hstep⟩ := step_readAnswer hn hp hr hw hq
  exact ⟨_, hstep.trans (onReadAnswer_full hb _), rfl, rfl⟩

/-! ## The end of a routine -/

/-- The routine that runs in s has ended in t with r (R169, R170 to R172, R198). -/
structure RoutineEnd (r : ResultCode) (s t : State) : Prop where
  phase : t.phase = if s.pc.routine = .init ∧ r ≠ .ok then .offline else .idle
  claimCnt : t.claimCnt = if s.pc.routine = .init then 0#8 else s.claimCnt
  dirty : t.dirty = if r = .ok then false else s.dirty
  result : t.result = resultCode r
  pc : t.pc = SeqPc.outside
  trace : t.trace = s.trace ++ [.done r]
  conf : t.conf = s.conf
  fwver : t.fwver = s.fwver
  thumbPresent : t.thumbPresent = s.thumbPresent
  params : t.params = s.params
  micro : t.micro = s.micro
  tx : t.tx = s.tx
  rx : t.rx = s.rx
  env : t.env = s.env

theorem routineEnd_initDone {r : ResultCode} {s : State} (hr : s.pc.routine = .init) : RoutineEnd r s (initDone r s) :=
  ⟨by by_cases h : r = .ok <;> simp [hr, h], by simp [hr], rfl, rfl, rfl, rfl, rfl, rfl, rfl, rfl, rfl, rfl, rfl, rfl⟩

theorem routineEnd_commitDone {r : ResultCode} {s : State} (hr : s.pc.routine = .commit) :
    RoutineEnd r s (commitDone r s) :=
  ⟨by simp [hr], by simp [hr], rfl, rfl, rfl, rfl, rfl, rfl, rfl, rfl, rfl, rfl, rfl, rfl⟩

/-- commitSeq returns to the routine that called it, which ends (R170, R198). -/
theorem commitReturn_ends {r : ResultCode} {s : State} (hr : s.pc.routine ≠ .none) :
    ∃ t, commitReturn r s = .next t ∧ RoutineEnd r s t := by
  obtain ⟨t, ht⟩ := commitReturn_next (r := r) (s := s)
  rcases commitReturn_cases hr ht with ⟨hi, rfl⟩ | ⟨hc, rfl⟩
  · exact ⟨_, ht, routineEnd_initDone hi⟩
  · exact ⟨_, ht, routineEnd_commitDone hc⟩

/-- A failed exchange of the commit sequence ends it (R168). -/
theorem commandReturn_transportError {s : State} (h : s.pc.stage = .res ∨ s.pc.stage = .led ∨ s.pc.stage = .freq) :
    commandReturn .transportError s = commitReturn .transportError s := by
  rcases h with h | h | h <;> simp [commandReturn, h]

/-- So does whatever the exchange of the last frame returns (R164). -/
theorem commandReturn_of_freq {s : State} (h : s.pc.stage = .freq) (r : ResultCode) :
    commandReturn r s = commitReturn r s := by
  simp [commandReturn, h]

/-- A failed exchange of the commit sequence ends the routine with TransportError, in the same step (R132, R168). -/
theorem step_of_failedSequence {s : State} (hn : noReset s = true) (hp : portReady s = false)
    (hr : s.pc.routine ≠ .none) (hs : s.pc.stage = .res ∨ s.pc.stage = .led ∨ s.pc.stage = .freq)
    (h : exchangeFails s) : ∃ e t, step s = .next t ∧ RoutineEnd .transportError (withEnv s e) t := by
  obtain ⟨e, hstep⟩ := step_of_exchangeFails hn hp hr h
  obtain ⟨t, ht, hend⟩ := commitReturn_ends (r := .transportError) (s := withEnv s e) hr
  exact ⟨e, t, hstep.trans ((commandReturn_transportError (s := withEnv s e) hs).trans ht), hend⟩

/-- Buffers are read by their contents. -/
theorem sameBuffers_of_eq {s t : State} (htx : t.tx = s.tx) (hrx : t.rx = s.rx) : sameBuffers s t := by
  intro b a
  cases b with
  | tx => exact congrArg (Memory.readByte · a) htx
  | rx => exact congrArg (Memory.readByte · a) hrx

/-- Settles O28: the routine that ends is the COMMIT. -/
theorem failedExchangeEndsTheCommit : Obligations.FailedExchangeEndsTheCommit := by
  intro s hn hp hr hs h
  obtain ⟨e, t, hstep, hend⟩ := step_of_failedSequence hn hp (by simp [hr]) hs h
  exact ⟨t, hstep, by simpa [withEnv, hr] using hend.phase, by rw [hend.pc]; rfl, by rw [hend.pc]; rfl, hend.result,
    hend.trace, hend.dirty, hend.conf, by simpa [withEnv, hr] using hend.claimCnt, hend.fwver, hend.thumbPresent,
    hend.params, hend.micro, sameBuffers_of_eq hend.tx hend.rx⟩

/-- Settles O29: the routine that ends is initialization. -/
theorem failedExchangeEndsInitialization : Obligations.FailedExchangeEndsInitialization := by
  intro s hn hp hr hs h
  obtain ⟨e, t, hstep, hend⟩ := step_of_failedSequence hn hp (by simp [hr]) hs h
  exact ⟨t, hstep, by simpa [withEnv, hr] using hend.phase, by rw [hend.pc]; rfl, by rw [hend.pc]; rfl, hend.result,
    hend.trace, hend.dirty, by simpa [withEnv, hr] using hend.claimCnt, hend.conf, hend.fwver, hend.thumbPresent,
    hend.params, hend.micro, sameBuffers_of_eq hend.tx hend.rx⟩

/-! ## CONFIG and DIRTY while a routine runs -/

theorem resultCode_eq_zero_iff (r : ResultCode) : resultCode r = 0#8 ↔ r = .ok := by
  cases r <;> decide

/-- A routine that runs in u goes on, with DIRTY as it was, or ends with r (R169). -/
inductive Runs (u t : State) : Prop
  | on (hphase : t.phase = u.phase) (hdirty : t.dirty = u.dirty)
  | ends (r : ResultCode) (hphase : t.phase = .idle ∨ t.phase = .offline) (hresult : t.result = resultCode r)
      (hdirty : t.dirty = if r = .ok then false else u.dirty)

theorem RoutineEnd.runs {r : ResultCode} {u v t : State} (h : RoutineEnd r v t) (hv : v.dirty = u.dirty) : Runs u t := by
  refine .ends r ?_ h.result (hv ▸ h.dirty)
  rw [h.phase]
  split
  · exact .inr rfl
  · exact .inl rfl

theorem runs_of_commitReturn {r : ResultCode} {u v t : State} (hr : v.pc.routine ≠ .none)
    (ht : commitReturn r v = .next t) (hv : v.dirty = u.dirty) : Runs u t := by
  obtain ⟨t', ht', hend⟩ := commitReturn_ends (r := r) hr
  cases Host.Outcome.next.inj (ht.symm.trans ht')
  exact hend.runs hv

/-- While a routine runs, every move goes on with it or ends it. -/
theorem Move.runs {u t : State} (h : Move u t) (hp : u.phase = .init ∨ u.phase = .busy) : Runs u t := by
  cases h with
  | waits => exact .on rfl rfl
  | offline h | turnedAway h | cleanCommit h | acquires h | releases h | setsLed h | setsFreq h | setsX h | setsY h
  | commits h => simp [h] at hp
  | starts | sendsCur | written | rereads | wakes => exact .on (by simp) (by simp)
  | probed => exact .on (by simp) (by simp)
  | sleeps _ _ _ _ _ hv => exact .on (by simp [hv.phase]) (by simp [hv.dirty])
  | nextLed _ _ _ _ _ _ hv | toFreq _ _ _ _ _ _ _ hv => exact .on (by simp [hv.phase]) (by simp [hv.dirty])
  | nowhere _ _ _ _ hv => exact .on hv.phase hv.dirty
  | probeEnds _ _ _ _ _ _ hv ht =>
    cases eq_of_initFinish ht
    exact .ends .deviceNotResponding (.inr rfl) rfl hv.dirty
  | badFreq hr _ _ _ _ _ _ hv ht => exact runs_of_commitReturn (by simpa [hv.pc] using hr) ht hv.dirty
  | ends hr _ _ _ _ hv ht => exact runs_of_commitReturn (by rwa [hv.pc]) ht hv.dirty

/-- Settles O48: the setters that write CONFIG are taken in IDLE alone, and DIRTY is written at a routine's end. -/
theorem runningRoutinesWriteNoConfiguration : Obligations.RunningRoutinesWriteNoConfiguration := by
  intro s t hp _ hn h
  obtain ⟨e, hm⟩ := move_of_step hn h
  have hconf : t.conf = s.conf := by
    rcases hm.conf_cases with hc | ⟨⟨hidle, -⟩, -⟩
    · exact hc
    · have hidle : s.phase = .idle := hidle
      simp [hidle] at hp
  refine ⟨hconf, ?_⟩
  cases hm.runs hp with
  | on hphase hdirty => exact ⟨fun _ => hdirty, fun hne => absurd hphase hne⟩
  | ends r hphase hresult hdirty =>
    refine ⟨fun heq => ?_, fun _ => ?_⟩
    · rw [heq] at hphase
      rcases hp with hp | hp <;> simp [hp] at hphase
    · rw [hdirty]
      simp only [hresult, resultCode_eq_zero_iff]
      rfl

/-! ## A position with no wait -/

/-- With no host move the step is the sequencer's. -/
theorem step_of_host_nil {s : State} (h : s.env.host = []) : step s = sequencerMove s := by
  simp only [step, machineStep, h]

theorem sequencerMove_of_no_wait {s : State} (hr : s.pc.routine ≠ .none) (hw : s.pc.wait = .none) :
    sequencerMove s = runPosition s := by
  unfold sequencerMove
  rw [hw]
  cases h : s.pc.routine with
  | none => exact absurd h hr
  | init => rfl
  | commit => rfl

/-- Settles O22: at the reset position init() takes its claim and begins attempt 1 at the stage it is at. -/
theorem stepExecutesTheSequencersFrame : Obligations.StepExecutesTheSequencersFrame := by
  intro s hh
  rw [step_of_host_nil hh]
  constructor
  · intro hpc
    have hstage : setStage .probe (setClaims 1#8 s) = setClaims 1#8 s := setStage_of_stage (by simp [hpc])
    rw [sequencerMove_of_no_wait (by simp [hpc]) (by simp [hpc]), runPosition, if_pos (show s.pc = SeqPc.entry from hpc),
      initStart, probeStart, hstage]
    rfl
  · intro i hr hw he hi
    rw [sequencerMove_of_no_wait hr hw, runPosition, if_neg (show s.pc ≠ SeqPc.entry from he), hi]

/-! ## What follows a probe attempt -/

theorem byteAt_frameOf {bs : List Byte} (hb : bs.length = frameLen) {i : Nat} (hi : i < 90) {b : Byte}
    (h : bs[i]? = some b) : byteAt (frameOf bs) i = b := by
  rw [← Option.some_inj, ← bytes_getElem? _ hi, bytes_frameOf hb, h]

/-- A failed exchange is a failed probe attempt (R161). -/
theorem commandReturn_transportError_of_probe {s : State} (hs : s.pc.stage = .probe) :
    commandReturn .transportError s = probeFailed s := by
  simp [commandReturn, hs]

/-- A response to the probe: its high byte decides (R161, R162). -/
theorem commandReturn_responded_of_probe {s : State} {bs : List Byte} (hs : s.pc.stage = .probe)
    (hb : bs.length = frameLen) {hi lo : Byte} (h8 : bs[8]? = some hi) (h9 : bs[9]? = some lo) :
    commandReturn .ok (responded bs s) =
      if hi = 0#8 then probeFailed (responded bs s)
      else .next (sent (resEncode s.conf) (setStage .res (setForce true { responded bs s with fwver := be16 hi lo }))) := by
  have hret : commandReturn .ok (responded bs s) = probeAnswered (responded bs s) := by
    simp [commandReturn, responded, hs]
  rw [hret, probeAnswered_eq (s := responded bs s) (readBytes_received hb s), byteAt_frameOf hb (by decide) h8,
    byteAt_frameOf hb (by decide) h9]
  rfl

/-- Settles O30: both failures reach `probeFailed` with the logs of the response, if any, and RX alone changed. -/
theorem failedProbeAttemptSleepsOrGivesUp : Obligations.FailedProbeAttemptSleepsOrGivesUp := by
  intro s hn hp hr hs outcome
  have hrn : s.pc.routine ≠ .none := by simp [hr]
  have fails : ∀ (e : Env) (m : Memory) (logs : List Event),
      ∃ t, probeFailed { s with env := e, rx := m, trace := s.trace ++ logs } = .next t ∧ outcome t logs ∧ t.rx = m := by
    intro e m logs
    rw [probeFailed_eq]
    by_cases h5 : s.micro.pattempt < 5
    · rw [if_pos h5]
      exact ⟨_, rfl, ⟨rfl, rfl, rfl, rfl, rfl, rfl, fun _ => rfl, by simp [h5]⟩, rfl⟩
    · rw [if_neg h5]
      refine ⟨_, rfl, ⟨rfl, rfl, rfl, rfl, rfl, rfl, fun _ => rfl, ?_⟩, rfl⟩
      rw [if_neg h5]
      exact ⟨rfl, rfl, rfl, rfl, rfl, rfl⟩
  constructor
  · intro h
    obtain ⟨e, hstep⟩ := step_of_exchangeFails hn hp hrn h
    obtain ⟨t, ht, hout, hrx⟩ := fails e s.rx []
    rw [List.append_nil] at ht
    exact ⟨t, hstep.trans ((commandReturn_transportError_of_probe (s := withEnv s e) hs).trans ht), hout,
      fun a => congrArg (Memory.readByte · a) hrx⟩
  · intro bs rest hw hq hb h8
    obtain ⟨e, hstep, -, -⟩ := step_of_response hn hp hrn hw hq hb
    obtain ⟨t, ht, hout, hrx⟩ := fails e (Memory.writeBytes s.rx 0 bs) (responseLogs (frameOf bs))
    have h9 : bs[9]? = some bs[9] := List.getElem?_eq_getElem _
    rw [commandReturn_responded_of_probe (s := withEnv s e) hs hb h8 h9, if_pos rfl] at hstep
    exact ⟨t, hstep.trans ht, hout, loadsRx_of_writeBytes hb hrx⟩

/-! ## The next frame of the sequence -/

/-- After the response bs the block has logged what was wrong with it and sent the frame f from stage st (R129, R164). -/
structure NextFrameSent (f : Frame) (bs : List Byte) (st : Stage) (e : Env) (s t : State) : Prop where
  trace : t.trace = s.trace ++ responseLogs (frameOf bs) ++ [.wrReq (writeShape s.params.writeReq) f]
  tx : ∀ a, peek t .tx a = if a < 90 then some (byteAt f a) else peek s .tx a
  rx : loadsRx bs s t
  pc : t.pc = { s.pc with stage := st, wait := .write }
  env : t.env = e

/-- A send does that from any state w that the routine has made of the response's. -/
theorem nextFrameSent_sent {f : Frame} {bs : List Byte} {st : Stage} {s w : State} {e : Env} (hb : bs.length = frameLen)
    (hf : withChecksum f = f) (htr : w.trace = (responded bs (withEnv s e)).trace) (htx : w.tx = s.tx)
    (hrx : w.rx = (responded bs (withEnv s e)).rx) (hst : setStage st w = w) (hr : w.pc.routine = s.pc.routine)
    (hpa : w.params = s.params) (henv : w.env = e) : NextFrameSent f bs st e s (sent f w) where
  trace := by rw [sent_trace, htr, hf, hpa]; rfl
  tx a := by
    rw [peek_tx_sent, hf]
    exact congrArg (ite (a < 90) _) (congrArg (Memory.readByte · a) htx)
  rx := loadsRx_of_writeBytes hb (hrx : _ = Memory.writeBytes s.rx 0 bs)
  pc := by rw [← hst]; simp [← hr]
  env := (sent_env f w).trans henv

/-- Settles O32: a high byte other than 0 is the version's, and RESENCODE's frame starts the forced commit. -/
theorem probeResponseSetsTheVersionAndStartsTheCommit : Obligations.ProbeResponseSetsTheVersionAndStartsTheCommit := by
  intro s bs rest hi lo hn hp hr hs hw hq hb h8 h9 hne
  obtain ⟨e, hstep, hreads, hwrites⟩ := step_of_response hn hp (by simp [hr]) hw hq hb
  rw [commandReturn_responded_of_probe (s := withEnv s e) hs hb h8 h9, if_neg hne] at hstep
  obtain ⟨htrace, htx, hrx, hpc, henv⟩ := nextFrameSent_sent (f := resEncode s.conf) (st := .res) (s := s)
    (w := setStage .res (setForce true { responded bs (withEnv s e) with fwver := be16 hi lo })) (e := e) hb
    (withChecksum_resEncode _) rfl rfl rfl rfl rfl rfl rfl
  exact ⟨_, _, hstep, by simpa using be16_toNat hi lo, isResolutionFrame_resEncode s.conf, htrace, htx, hrx, hpc,
    by simp, by simp [sameRegisters], (congrArg Env.reads henv).trans hreads, (congrArg Env.writes henv).trans hwrites⟩

/-- The LED loop goes on from id i when the frame of the stage has been answered (R164, R166). -/
def LoopAt (s : State) (i : Nat) : Prop :=
  (s.pc.stage = .res ∧ i = 0) ∨ (s.pc.stage = .led ∧ i = s.micro.led + 1)

theorem commandReturn_ok_of_loopAt {s : State} {i : Nat} (h : LoopAt s i) :
    commandReturn .ok s = ledLoop i (setStage .led s) := by
  rcases h with ⟨hs, rfl⟩ | ⟨hs, rfl⟩
  · simp [commandReturn, hs]
  · simp [commandReturn, hs, setStage_of_stage hs]

/-- The loop sends the frame of the first id that is left (R166). -/
theorem commandReturn_of_cons {s : State} {i k : Nat} {ks : List Nat} (hi : LoopAt s i)
    (hk : supportedFrom s.conf i = k :: ks) :
    commandReturn .ok s = .next (sent (ledFrame s.params s.conf k) (setLedIndex k (setStage .led s))) := by
  rw [commandReturn_ok_of_loopAt hi, ledLoop_eq, setStage_conf, find_ledList_eq_head, hk]
  rfl

/-- With no id left comes step 3 (R164). -/
theorem commandReturn_of_nil {s : State} {i : Nat} (hi : LoopAt s i) (hk : supportedFrom s.conf i = []) :
    commandReturn .ok s = enterFreq (setLedIndex 3 (setStage .led s)) := by
  rw [commandReturn_ok_of_loopAt hi, ledLoop_eq, setStage_conf, find_ledList_eq_head, hk]
  rfl

/-- It sends the frame of a known code (R167). -/
theorem commandReturn_of_known {s : State} {i : Nat} {c : Byte} (hi : LoopAt s i) (hk : supportedFrom s.conf i = [])
    (hc : freqByte s.conf.freq = some c) :
    commandReturn .ok s = .next (sent (freqsetFrame c) (setStage .freq (setLedIndex 3 s))) := by
  rw [commandReturn_of_nil hi hk, enterFreq_eq, setLedIndex_conf, setStage_conf, hc]
  rfl

/-- For a reserved code it returns before any frame is sent (R26, R167). -/
theorem commandReturn_of_reserved {s : State} {i : Nat} (hi : LoopAt s i) (hk : supportedFrom s.conf i = [])
    (hc : freqByte s.conf.freq = none) :
    commandReturn .ok s = commitReturn .invalidArgument (setStage .freq (setLedIndex 3 s)) := by
  rw [commandReturn_of_nil hi hk, enterFreq_eq, setLedIndex_conf, setStage_conf, hc]
  rfl

/-- Settles O33: the loop goes on from the next id, and the first supported one is sent. -/
theorem responseLeadsToTheNextSupportedLed : Obligations.ResponseLeadsToTheNextSupportedLed := by
  intro s bs rest i k ks hn hp hr hw hq hb hi hk
  obtain ⟨e, hstep, hreads, hwrites⟩ := step_of_response hn hp hr hw hq hb
  obtain ⟨hle, -, -⟩ := mem_supportedFrom.mp (hk ▸ List.mem_cons_self : k ∈ supportedFrom s.conf i)
  rw [commandReturn_of_cons (s := responded bs (withEnv s e)) hi hk] at hstep
  obtain ⟨htrace, htx, hrx, hpc, henv⟩ := nextFrameSent_sent (f := ledFrame s.params s.conf k) (st := .led) (s := s)
    (w := setLedIndex k (setStage .led (responded bs (withEnv s e)))) (e := e) hb
    (withChecksum_ledFrame _ _ _) rfl rfl rfl rfl rfl rfl rfl
  exact ⟨_, _, hstep, isLedFrame_ledFrame _ _ hle, htrace, htx, hrx, hpc, by simp, by simp [sameRegisters],
    (congrArg Env.reads henv).trans hreads, (congrArg Env.writes henv).trans hwrites⟩

/-- Settles O34: with no id left, step 3 sends the frame of a known code and returns InvalidArgument for a reserved one. -/
theorem frequencyStepFollowsTheLastLed : Obligations.FrequencyStepFollowsTheLastLed := by
  intro s bs rest i hn hp hr hw hq hb hi hk
  have hrn : s.pc.routine ≠ .none := by rcases hr with hr | hr <;> simp [hr]
  obtain ⟨e, hstep, hreads, hwrites⟩ := step_of_response hn hp hrn hw hq hb
  by_cases hf : s.conf.freq.toNat ≤ 3
  · obtain ⟨c, hc, hframe⟩ := exists_freqFrame hf
    rw [commandReturn_of_known (s := responded bs (withEnv s e)) hi hk hc] at hstep
    obtain ⟨htrace, htx, hrx, hpc, henv⟩ := nextFrameSent_sent (f := freqsetFrame c) (st := .freq) (s := s)
      (w := setStage .freq (setLedIndex 3 (responded bs (withEnv s e)))) (e := e) hb
      (withChecksum_freqsetFrame _) rfl rfl rfl rfl rfl rfl rfl
    refine ⟨_, hstep, hrx, by simp, by simp, by simp, by simp, by simp, (congrArg Env.reads henv).trans hreads,
      (congrArg Env.writes henv).trans hwrites, ?_⟩
    rw [if_pos hf]
    exact ⟨_, hframe, htrace, htx, hpc, by simp, by simp, by simp⟩
  · obtain ⟨t, ht, hend⟩ := commitReturn_ends (r := .invalidArgument)
      (s := setStage .freq (setLedIndex 3 (responded bs (withEnv s e)))) hrn
    rw [commandReturn_of_reserved (s := responded bs (withEnv s e)) hi hk (freqByte_of_reserved hf)] at hstep
    refine ⟨t, hstep.trans ht, loadsRx_of_writeBytes hb hend.rx, hend.conf, hend.dirty, hend.fwver, hend.thumbPresent,
      hend.params, (congrArg Env.reads hend.env).trans hreads, (congrArg Env.writes hend.env).trans hwrites, ?_⟩
    rw [if_neg hf]
    refine ⟨hend.trace, fun a => congrArg (Memory.readByte · a) hend.tx, by rw [hend.pc]; rfl, by rw [hend.pc]; rfl,
      hend.result, ?_⟩
    rw [hend.phase, hend.claimCnt]
    rcases hr with hr | hr <;> simp [responded, withEnv, hr]

/-- Settles O35: what the last exchange returns ends the routine. -/
theorem lastResponseCompletesWithOk : Obligations.LastResponseCompletesWithOk := by
  intro s bs rest hn hp hr hs hw hq hb
  have hrn : s.pc.routine ≠ .none := by rcases hr with hr | hr <;> simp [hr]
  obtain ⟨e, hstep, -, -⟩ := step_of_response hn hp hrn hw hq hb
  rw [commandReturn_of_freq (s := responded bs (withEnv s e)) hs] at hstep
  obtain ⟨t, ht, hend⟩ := commitReturn_ends (r := .ok) (s := responded bs (withEnv s e)) hrn
  exact ⟨t, hstep.trans ht, by simpa using hend.phase, hend.dirty, hend.result, by rw [hend.pc]; rfl, by rw [hend.pc]; rfl,
    hend.claimCnt, hend.trace, hend.conf, hend.fwver, hend.thumbPresent, fun a => congrArg (Memory.readByte · a) hend.tx,
    loadsRx_of_writeBytes hb hend.rx⟩

end Sys2Proof.Machine
end

section
/-! A whole COMMIT, from its word to its completion (R164, R173, R198). -/

namespace Sys2Proof.Machine

open Sys2Proof.Safety

/-! ## One exchange -/

section
variable {s : State} {b : List Byte} {responses : List (List Byte)} {ws : List WriteAnswer} {rs : List ReadAnswer}

theorem run_step {t : State} (h : step s = .next t) (n : Nat) :
    Host.Core.run core (n + 1) s = Host.Core.run core n t := by
  have hcore : core.step s = .next t := h
  simp only [Host.Core.run, hcore]

/-- A running COMMIT waits for the answer to a write; the host is silent, and an accepted write and a whole read are to come
for each of the responses. -/
structure AwaitsFrames (s : State) (responses : List (List Byte)) (ws : List WriteAnswer) (rs : List ReadAnswer) :
    Prop where
  routine : s.pc.routine = .commit
  wait : s.pc.wait = .write
  host : s.env.host = []
  writes : s.env.writes = List.replicate responses.length (.accepted 90) ++ ws
  reads : s.env.reads = responses.map .returned ++ rs
  whole : ∀ b ∈ responses, b.length = 90

/-- The state in which an accepted write leaves the block: the first read attempt is under way (R122). -/
def reading (s : State) : State := xferRead (setRattempt 1 (withEnv s { s.env with writes := s.env.writes.tail }))

/-- The state in which an exchange answered by an accepted write and the whole response b leaves the block (R123). -/
def exchanged (b : List Byte) (s : State) : State :=
  responded b (withEnv (reading s) { (reading s).env with reads := (reading s).env.reads.tail })

/-- The two steps of an exchange: the read follows the accepted write, and its response returns OK to the stage (R129). -/
theorem run_exchange {t : State} (h : AwaitsFrames s (b :: responses) ws rs)
    (ht : commandReturn .ok (exchanged b s) = .next t) (n : Nat) :
    Host.Core.run core (n + 2) s = Host.Core.run core n t := by
  obtain ⟨hr, hw, hh, hwrites, hreads, hwhole⟩ := h
  have hwrite : step s = .next (reading s) := by
    rw [step_of_host_nil hh, sequencerMove_write (by simp [hr]) hw hwrites, reading, hwrites]
    exact if_pos ((writeSucceeds_iff _).mpr rfl)
  have hread : step (reading s) = .next t := by
    have hhost : (reading s).env.host = [] := hh
    have hanswer : (reading s).env.reads = .returned b :: (responses.map .returned ++ rs) := hreads
    rw [step_of_host_nil hhost, sequencerMove_read (by simp [reading, hr]) rfl hanswer,
      onReadAnswer_full (hwhole b List.mem_cons_self), ← ht, exchanged, hanswer]
    rfl
  rw [run_step hwrite, run_step hread]

@[simp] theorem exchanged_pc (b : List Byte) (s : State) : (exchanged b s).pc = { s.pc with wait := .read } := by
  simp [exchanged, reading]
@[simp] theorem exchanged_micro (b : List Byte) (s : State) :
    (exchanged b s).micro = { s.micro with rattempt := 1 } := by simp [exchanged, reading]
@[simp] theorem exchanged_conf (b : List Byte) (s : State) : (exchanged b s).conf = s.conf := by
  simp [exchanged, reading]
@[simp] theorem exchanged_params (b : List Byte) (s : State) : (exchanged b s).params = s.params := by
  simp [exchanged, reading]
@[simp] theorem exchanged_claimCnt (b : List Byte) (s : State) : (exchanged b s).claimCnt = s.claimCnt := by
  simp [exchanged, reading]
@[simp] theorem exchanged_fwver (b : List Byte) (s : State) : (exchanged b s).fwver = s.fwver := by
  simp [exchanged, reading]
@[simp] theorem exchanged_env (b : List Byte) (s : State) :
    (exchanged b s).env = { s.env with writes := s.env.writes.tail, reads := s.env.reads.tail } := by
  simp [exchanged, reading]

theorem loopAt_exchanged {i : Nat} : LoopAt (exchanged b s) i ↔ LoopAt s i := by
  simp [LoopAt]

@[simp] theorem framesWritten_exchanged (b : List Byte) (s : State) :
    framesWritten (exchanged b s).trace = framesWritten s.trace := by
  have hlogs : IsLogs (responseLogs (frameOf b)) := .inr ⟨_, rfl⟩
  simp [exchanged, reading, framesWritten_append, hlogs.framesWritten, framesWritten]

/-! ## The frames of a COMMIT -/

/-- From s to t the block has written the frames fs, and the registers a COMMIT reads or leaves are as they were (R169). -/
structure Writes (s t : State) (fs : List Frame) : Prop where
  frames : framesWritten t.trace = framesWritten s.trace ++ fs
  conf : t.conf = s.conf
  params : t.params = s.params
  claimCnt : t.claimCnt = s.claimCnt
  fwver : t.fwver = s.fwver

theorem Writes.trans {t u : State} {fs gs : List Frame} (h : Writes s t fs) (h' : Writes t u gs) :
    Writes s u (fs ++ gs) :=
  ⟨by rw [h'.frames, h.frames, List.append_assoc], h'.conf.trans h.conf, h'.params.trans h.params,
    h'.claimCnt.trans h.claimCnt, h'.fwver.trans h.fwver⟩

/-- An exchange whose stage sends the frame f next, from a state w made of the response's. -/
theorem writes_sent {w : State} {f : Frame} (hf : withChecksum f = f)
    (hw : framesWritten w.trace = framesWritten s.trace ∧ w.conf = s.conf ∧ w.params = s.params ∧
      w.claimCnt = s.claimCnt ∧ w.fwver = s.fwver) : Writes s (sent f w) [f] := by
  obtain ⟨htr, hconf, hparams, hclaim, hfw⟩ := hw
  exact ⟨by rw [sent_trace, framesWritten_append, htr, hf]; rfl, hconf, hparams, hclaim, hfw⟩

/-- It awaits the exchange of that frame and the later ones. -/
theorem AwaitsFrames.sent {w : State} (h : AwaitsFrames s (b :: responses) ws rs) (f : Frame)
    (hr : w.pc.routine = s.pc.routine) (henv : w.env = (exchanged b s).env) :
    AwaitsFrames (Machine.sent f w) responses ws rs := by
  obtain ⟨hroutine, -, hh, hwrites, hreads, hwhole⟩ := h
  refine ⟨hr.trans hroutine, rfl, ?_, ?_, ?_, fun c hc => hwhole c (List.mem_cons_of_mem b hc)⟩ <;>
    simp [henv, hh, hwrites, hreads, List.replicate_succ]

/-- A COMMIT is over with OK, the tapes at ws and rs (R172, R198). -/
structure Committed (t : State) (ws : List WriteAnswer) (rs : List ReadAnswer) : Prop where
  phase : t.phase = .idle
  dirty : t.dirty = false
  result : t.result = 0#8
  last : t.trace.getLast? = some (.done .ok)
  writes : t.env.writes = ws
  reads : t.env.reads = rs
  host : t.env.host = []

/-- The exchange of the frequency frame is the last one (R164). -/
theorem run_freqFrame (h : AwaitsFrames s [b] ws rs) (hs : s.pc.stage = .freq) :
    ∃ t, Host.Core.run core 2 s = .next t ∧ Writes s t [] ∧ Committed t ws rs := by
  obtain ⟨t, ht, hend⟩ := commitReturn_ends (r := .ok) (s := exchanged b s) (by simp [h.routine])
  have hret : commandReturn .ok (exchanged b s) = .next t :=
    (commandReturn_of_freq (by simpa using hs) _).trans ht
  have henv : t.env = { s.env with writes := ws, reads := rs } := by
    rw [hend.env]; simp [h.writes, h.reads]
  refine ⟨t, run_exchange h hret 0, ⟨?_, by simp [hend.conf], by simp [hend.params], ?_, by simp [hend.fwver]⟩,
    ⟨by simpa using hend.phase, hend.dirty, hend.result, by simp [hend.trace], by rw [henv], by rw [henv],
      by rw [henv]; exact h.host⟩⟩
  · rw [hend.trace, framesWritten_append, framesWritten_exchanged]; rfl
  · simpa [h.routine] using hend.claimCnt

/-- The exchange before an LED frame: the loop sends the frame of the first id that is left (R166). -/
theorem run_ledFrame {i k : Nat} {ks : List Nat} (h : AwaitsFrames s (b :: responses) ws rs) (hi : LoopAt s i)
    (hk : supportedFrom s.conf i = k :: ks) :
    ∃ u, (∀ n, Host.Core.run core (n + 2) s = Host.Core.run core n u) ∧ AwaitsFrames u responses ws rs ∧
      Writes s u [ledFrame s.params s.conf k] ∧ LoopAt u (k + 1) := by
  have hk' : supportedFrom (exchanged b s).conf i = k :: ks := by rwa [exchanged_conf]
  have hnext := commandReturn_of_cons (loopAt_exchanged.mpr hi) hk'
  rw [exchanged_params, exchanged_conf] at hnext
  exact ⟨_, run_exchange h hnext, h.sent _ (by simp) (by simp), writes_sent (withChecksum_ledFrame _ _ k) (by simp),
    .inr (by simp)⟩

/-- The exchange before the frequency frame (R167). -/
theorem run_toFreq {i : Nat} {c : Byte} (h : AwaitsFrames s (b :: responses) ws rs) (hi : LoopAt s i)
    (hk : supportedFrom s.conf i = []) (hc : freqByte s.conf.freq = some c) :
    ∃ u, (∀ n, Host.Core.run core (n + 2) s = Host.Core.run core n u) ∧ AwaitsFrames u responses ws rs ∧
      Writes s u [freqsetFrame c] ∧ u.pc.stage = .freq := by
  have hnext := commandReturn_of_known (loopAt_exchanged.mpr hi) (by rwa [exchanged_conf b]) (by rwa [exchanged_conf b])
  exact ⟨_, run_exchange h hnext, h.sent _ (by simp) (by simp), writes_sent (withChecksum_freqsetFrame c) (by simp),
    by simp⟩

/-- From the exchange of the resolution frame or of an LED frame on, the block sends the frames of the ids ks that are left and
the frequency frame (R164, R166, R167). -/
theorem run_commitSeq {ks : List Nat} :
    ∀ {s : State} {i : Nat} {responses : List (List Byte)}, AwaitsFrames s responses ws rs → LoopAt s i →
      supportedFrom s.conf i = ks → s.conf.freq.toNat ≤ 3 → responses.length = ks.length + 2 →
        ∃ t fs, Host.Core.run core (2 * responses.length) s = .next t ∧
          framesMatch (ks.map (isLedFrame s.params s.conf) ++ [isFreqFrame s.conf.freq]) fs ∧ Writes s t fs ∧
            Committed t ws rs := by
  induction ks with
  | nil =>
    intro s i responses h hi hk hf hlen
    obtain ⟨b, c, rfl⟩ := List.length_eq_two.mp hlen
    obtain ⟨code, hcode, hframe⟩ := exists_freqFrame hf
    obtain ⟨u, hrun, hu, hwrites, hs⟩ := run_toFreq h hi hk hcode
    obtain ⟨t, ht, hw, hdone⟩ := run_freqFrame hu hs
    exact ⟨t, [freqsetFrame code], (hrun 2).trans ht, ⟨hframe, trivial⟩, hwrites.trans hw, hdone⟩
  | cons k ks ih =>
    intro s i responses h hi hk hf hlen
    obtain ⟨b, responses, rfl⟩ := List.exists_cons_of_length_eq_add_one hlen
    obtain ⟨hle, -, -⟩ := mem_supportedFrom.mp (hk ▸ List.mem_cons_self : k ∈ supportedFrom s.conf i)
    obtain ⟨u, hrun, hu, hwrites, hloop⟩ := run_ledFrame h hi hk
    obtain ⟨t, fs, ht, hm, hw, hdone⟩ := ih hu hloop (hwrites.conf ▸ supportedFrom_succ hk) (hwrites.conf ▸ hf)
      (Nat.succ.inj hlen)
    rw [hwrites.conf, hwrites.params] at hm
    exact ⟨t, ledFrame s.params s.conf k :: fs, (hrun _).trans ht, ⟨isLedFrame_ledFrame _ _ hle, hm⟩,
      hwrites.trans hw, hdone⟩

end

/-! ## The COMMIT word -/

/-- A claimed COMMIT that is forced or finds the block Dirty starts its sequence (R198). -/
theorem execCommit_starts {s : State} {force : Bool} (hp : s.phase = .idle) (hc : s.claimCnt ≠ 0#8)
    (hf : force = true ∨ s.dirty = true) :
    execCommit force s = .next (sent (resEncode s.conf) (setStage .res (setForce force
      (setPc { routine := .commit, stage := .res, wait := .none } (setPhase .busy s))))) := by
  have hruns : (!force && !s.dirty) = false := by rcases hf with h | h <;> simp [h]
  rw [execCommit, hostOp_idle hp]
  simp [claimed, hc, hruns, commitSeq_eq]

/-- A word on a ready port is taken off the tape (R190). -/
theorem step_takes_word {s : State} {w : HostWord} {rest : List HostMove} (hp : portReady s = true)
    (hh : s.env.host = .word w :: rest) : step s = takeWord w (withEnv s { s.env with host := rest }) := by
  have hdrop : dropHostMove s = withEnv s { s.env with host := rest } := by simp [dropHostMove, hh, withEnv]
  simp only [step, machineStep, hh, hp, if_true, hdrop]

/-- The step that takes the word sends the resolution frame (R165, R198). -/
theorem step_of_commitWord {s : State} {force : Bool} {w : HostWord} (hp : s.phase = .idle) (hc : s.claimCnt ≠ 0#8)
    (hf : force = true ∨ s.dirty = true) (hw : encode (.commit force) = .host w) (hh : s.env.host = [.word w]) :
    ∃ u, step s = .next u ∧ Writes s u [resEncode s.conf] ∧ u.pc = { routine := .commit, stage := .res, wait := .write } ∧
      u.env = { s.env with host := [] } := by
  have htake : takeWord w (withEnv s { s.env with host := [] }) =
      execCommit force (withEnv s { s.env with host := [] }) := by
    rw [takeWord, decodeHost_eq_ok_iff.mpr hw]
    rfl
  exact ⟨_, (step_takes_word (by simp [portReady, hp]) hh).trans (htake.trans (execCommit_starts hp hc hf)),
    writes_sent (withChecksum_resEncode _) (by simp), by simp, by simp⟩

/-- Settles O55: the word starts the sequence, and the loop of exchanges runs it to its end. -/
theorem commitSendsTheWholeSequenceInOrder : Obligations.CommitSendsTheWholeSequenceInOrder := by
  intro s force w responses ws rs hp hc hforce hf hw hh hlen hwhole hws hrs
  obtain ⟨u, hstep, hfirst, hpc, henv⟩ := step_of_commitWord hp hc hforce hw hh
  have hu : AwaitsFrames u responses ws rs :=
    ⟨by rw [hpc], by rw [hpc], by rw [henv], by rw [henv, ← hws], by rw [henv, ← hrs], hwhole⟩
  have hloop : LoopAt u 0 := .inl ⟨by rw [hpc], rfl⟩
  obtain ⟨t, fs, ht, hm, hrest, hdone⟩ := run_commitSeq hu hloop rfl (hfirst.conf ▸ hf) (by rw [hlen, hfirst.conf]; omega)
  have hall := hfirst.trans hrest
  rw [hfirst.conf, hfirst.params] at hm
  rw [Nat.add_comm, run_step hstep]
  exact ⟨t, resEncode s.conf :: fs, ht, ⟨isResolutionFrame_resEncode _, hm⟩, hall.frames, hdone.phase, hdone.dirty,
    hdone.result, hdone.last, hall.conf, hall.claimCnt, hall.fwver, hdone.writes, hdone.reads, hdone.host⟩

end Sys2Proof.Machine
end

section
/-! The host command port: which step takes a word and which leaves it on the tape (R190, R201). -/

namespace Sys2Proof.Machine

open Sys2Proof.Safety

/-! ## A word on a ready port -/

/-- A legal word is executed as the instruction it decodes to (R79, R190). -/
theorem takeWord_of_decodeHost {w : HostWord} {i : Instr} (h : decodeHost w = .ok i) (s : State) :
    takeWord w s = exec i s := by
  simp only [takeWord, h]

/-- Settles O21: a ready port takes the word off the tape, and a legal word is executed. -/
theorem stepExecutesTheHostWord : Obligations.StepExecutesTheHostWord := fun _ _ _ _ hp hh hd =>
  (step_takes_word hp hh).trans (takeWord_of_decodeHost hd _)

/-! ## OFFLINE -/

/-- Each of the six host operations begins with the check of PHASE (R191). -/
theorem exec_host_eq_hostOp {i : Instr} {w : HostWord} (h : encode i = .host w) (s : State) :
    ∃ run, exec i s = hostOp s run := by
  cases i <;> simp only [encode, reduceCtorEq] at h
  case acquire => unfold exec execAcquire; exact ⟨_, rfl⟩
  case release => unfold exec execRelease; exact ⟨_, rfl⟩
  case setled a b => unfold exec execSetled; exact ⟨_, rfl⟩
  case setfreq a => unfold exec execSetfreq; exact ⟨_, rfl⟩
  case setres a b => unfold exec execSetres; exact ⟨_, rfl⟩
  case commit force => unfold exec execCommit; exact ⟨_, rfl⟩

/-- In OFFLINE a word completes with Offline, legal or not (R191, R201). -/
theorem takeWord_of_offline (w : HostWord) {s : State} (hp : s.phase = .offline) :
    takeWord w s = .next (complete .offline s) := by
  cases hd : decodeHost w with
  | ok i =>
    obtain ⟨run, hrun⟩ := exec_host_eq_hostOp (decodeHost_eq_ok_iff.mp hd) s
    rw [takeWord_of_decodeHost hd, hrun]
    exact hostOp_offline hp run
  | error e =>
    simp only [takeWord, hd]
    exact hostOp_offline hp _

/-- STATUS alone shows PHASE (R37). -/
theorem regRead_of_other_phase {a : Byte} (ha : a ≠ 0x00#8) (p : Phase) (s : State) :
    regRead a { s with phase := p } = regRead a s := by
  have hne : a.toNat ≠ 0 := fun h => ha (BitVec.eq_of_toNat_eq h)
  unfold regRead
  split
  case h_1 h => exact absurd h hne
  all_goals rfl

/-- Settles O19: the port answers Offline, no move but RESET leaves OFFLINE, and of the registers only STATUS shows PHASE. -/
theorem offlineAnswersEveryWordWithOffline : Obligations.OfflineAnswersEveryWordWithOffline := by
  refine ⟨fun s w rest hp hh => ?_, fun s t hp hpos hn h => ?_, fun s a hp => ?_⟩
  · rw [step_takes_word (by simp [portReady, hp]) hh]
    exact takeWord_of_offline w hp
  · obtain ⟨e, hm⟩ := move_of_step hn h
    have pos : Position (withEnv s e) := position_of_positionOk hpos
    have hcases := (hm.control pos).phase_cases pos
    simpa [hp] using hcases
  · by_cases ha : a = 0x00#8
    · subst ha
      have hstatus : ∀ u : State, (regRead 0x00#8 u).toNat = (statusByte u).toNat := fun _ => rfl
      simp only [hstatus, statusByte_toNat, hp, if_true]
      omega
    · rw [regRead_of_other_phase ha .idle s, if_neg ha, Nat.add_zero]

/-! ## A word that waits -/

/-- The state with another tape of host moves. -/
def withHost (s : State) (moves : List HostMove) : State := { s with env := { s.env with host := moves } }

@[simp] theorem withHost_pc (s : State) (moves : List HostMove) : (withHost s moves).pc = s.pc := rfl
@[simp] theorem withHost_conf (s : State) (moves : List HostMove) : (withHost s moves).conf = s.conf := rfl
@[simp] theorem withHost_micro (s : State) (moves : List HostMove) : (withHost s moves).micro = s.micro := rfl
@[simp] theorem withHost_params (s : State) (moves : List HostMove) : (withHost s moves).params = s.params := rfl

/-- A send leaves the host's tape as it is (R129). -/
theorem sent_withHost (f : Frame) (s : State) (moves : List HostMove) :
    sent f (withHost s moves) = withHost (sent f s) moves := rfl

/-- The outcome with the next state changed by g. -/
def onNext (g : State → State) : Out → Out
  | .next t => .next (g t)
  | .fault r => .fault r
  | .refused r => .refused r

/-- A piece of the sequencer that neither reads the host's tape nor writes it. -/
def IgnoresHost (run : State → Out) : Prop :=
  ∀ (s : State) (moves : List HostMove), run (withHost s moves) = onNext (withHost · moves) (run s)

/-- A piece that ends in a send carries the tape through (R129). -/
theorem next_sent_withHost (f : Frame) (s : State) (moves : List HostMove) :
    (.next (sent f (withHost s moves)) : Out) = onNext (withHost · moves) (.next (sent f s)) :=
  congrArg Host.Outcome.next (sent_withHost f s moves)

theorem ignoresHost_commitReturn (r : ResultCode) : IgnoresHost (commitReturn r) := by
  intro s moves
  unfold commitReturn
  rw [withHost_pc]
  cases s.pc.routine <;> rfl

theorem ignoresHost_enterFreq : IgnoresHost enterFreq := by
  intro s moves
  rw [enterFreq_eq, enterFreq_eq, withHost_conf]
  cases freqByte s.conf.freq with
  | some c => exact next_sent_withHost (freqsetFrame c) (setStage .freq s) moves
  | none => exact ignoresHost_commitReturn .invalidArgument (setStage .freq s) moves

theorem ignoresHost_ledLoop (i : Nat) : IgnoresHost (ledLoop i) := by
  intro s moves
  rw [ledLoop_eq, ledLoop_eq, withHost_conf, withHost_params]
  cases (ledList s.conf).find? (fun k => decide (i ≤ k)) with
  | some k => exact next_sent_withHost (ledFrame s.params s.conf k) (setLedIndex k s) moves
  | none => exact ignoresHost_enterFreq (setLedIndex ledCount s) moves

theorem ignoresHost_probeFailed : IgnoresHost probeFailed := by
  intro s moves
  rw [probeFailed_eq, probeFailed_eq, withHost_micro]
  by_cases h : s.micro.pattempt < 5
  · rw [if_pos h, if_pos h]; rfl
  · rw [if_neg h, if_neg h]; rfl

theorem ignoresHost_probeAnswered : IgnoresHost probeAnswered := by
  intro s moves
  have hread : memRead16 .rx 8 (withHost s moves) = memRead16 .rx 8 s := rfl
  unfold probeAnswered
  rw [hread]
  cases memRead16 .rx 8 s with
  | unwritten => rfl
  | outOfRange => rfl
  | ok v =>
    simp only [Access.elim]
    by_cases h : hi8 v = 0#8
    · rw [if_pos h, if_pos h]; exact ignoresHost_probeFailed s moves
    · rw [if_neg h, if_neg h, initProbed_eq, initProbed_eq]
      exact next_sent_withHost (resEncode s.conf) (setStage .res (setForce true { s with fwver := v })) moves

theorem ignoresHost_commandReturn (r : ResultCode) : IgnoresHost (commandReturn r) := by
  intro s moves
  unfold commandReturn
  rw [withHost_pc, withHost_micro]
  by_cases h : r = .ok
  · cases s.pc.stage <;> simp only [if_pos h]
    case probe => exact ignoresHost_probeAnswered s moves
    case res => exact ignoresHost_ledLoop 0 (setStage .led s) moves
    case led => exact ignoresHost_ledLoop (s.micro.led + 1) s moves
    case freq => exact ignoresHost_commitReturn r s moves
    case absent => rfl
  · cases s.pc.stage <;> simp only [if_neg h]
    case probe => exact ignoresHost_probeFailed s moves
    case absent => rfl
    all_goals exact ignoresHost_commitReturn r s moves

theorem ignoresHost_onWriteAnswer (a : WriteAnswer) : IgnoresHost (onWriteAnswer a) := by
  intro s moves
  unfold onWriteAnswer
  by_cases h : writeSucceeds a = true
  · rw [if_pos h, if_pos h]; rfl
  · rw [if_neg h, if_neg h]; exact ignoresHost_commandReturn .transportError s moves

theorem ignoresHost_onReadAnswer (a : ReadAnswer) : IgnoresHost (onReadAnswer a) := by
  intro s moves
  rcases readAnswer_cases a with ⟨b, rfl, hb⟩ | h
  · rw [onReadAnswer_full hb, onReadAnswer_full hb]
    exact ignoresHost_commandReturn .ok (responded b s) moves
  · rw [onReadAnswer_failed h, onReadAnswer_failed h, withHost_micro]
    by_cases hr : s.micro.rattempt < 3
    · rw [if_pos hr, if_pos hr]; rfl
    · rw [if_neg hr, if_neg hr]; exact ignoresHost_commandReturn .transportError s moves

theorem ignoresHost_runPosition : IgnoresHost runPosition := by
  intro s moves
  unfold runPosition
  rw [withHost_pc, withHost_micro]
  by_cases h : s.pc = SeqPc.entry
  · rw [if_pos h, if_pos h, initStart_eq, initStart_eq]
    exact next_sent_withHost fwqueryFrame (setPattempt 1 (setStage .probe (setClaims 1#8 s))) moves
  · rw [if_neg h, if_neg h]
    cases hd : decodeFrame s.micro.cur with
    | error e => rfl
    | ok i =>
      obtain ⟨f, hf⟩ := decodeFrame_encode_frame hd
      simp only [exec_of_encode_frame hf]
      exact next_sent_withHost f s moves

theorem ignoresHost_onSleepDone : IgnoresHost onSleepDone := by
  intro s moves
  rw [onSleepDone_eq, onSleepDone_eq, withHost_micro]
  exact next_sent_withHost fwqueryFrame (setPattempt (s.micro.pattempt + 1) s) moves

/-- A move of the sequencer is the same whatever the host is about to do (R190). -/
theorem ignoresHost_sequencerMove : IgnoresHost sequencerMove := by
  intro s moves
  by_cases hr : s.pc.routine = .none
  · simp only [sequencerMove, withHost_pc, hr, onNext]
  cases hw : s.pc.wait with
  | none =>
    rw [sequencerMove_of_no_wait hr hw, sequencerMove_of_no_wait (s := withHost s moves) hr hw]
    exact ignoresHost_runPosition s moves
  | write =>
    cases hq : s.env.writes with
    | nil => simp [sequencerMove, hw, hq, withHost, onNext]
    | cons a rest =>
      rw [sequencerMove_write hr hw hq, sequencerMove_write (s := withHost s moves) hr hw hq]
      exact ignoresHost_onWriteAnswer a (withEnv s { s.env with writes := rest }) moves
  | read =>
    cases hq : s.env.reads with
    | nil => simp [sequencerMove, hw, hq, withHost, onNext]
    | cons a rest =>
      rw [sequencerMove_read hr hw hq, sequencerMove_read (s := withHost s moves) hr hw hq]
      exact ignoresHost_onReadAnswer a (withEnv s { s.env with reads := rest }) moves
  | sleep =>
    cases hq : s.env.ticks with
    | zero => simp [sequencerMove, hw, hq, withHost, onNext]
    | succ n =>
      rw [sequencerMove_sleep hr hw hq, sequencerMove_sleep (s := withHost s moves) hr hw hq]
      exact ignoresHost_onSleepDone (withEnv s { s.env with ticks := n }) moves

/-- The host's tape passes through a move of the sequencer unchanged. -/
theorem sequencerMove_host {s t : State} (h : sequencerMove s = .next t) : t.env.host = s.env.host := by
  have hsame := ignoresHost_sequencerMove s s.env.host
  rw [show withHost s s.env.host = s from rfl, h] at hsame
  exact congrArg (·.env.host) (Host.Outcome.next.inj hsame)

/-- A word presented while the port is not ready stays on the tape (R190). -/
theorem step_leaves_word {s : State} {w : HostWord} {rest : List HostMove} (hp : portReady s = false)
    (hh : s.env.host = .word w :: rest) : step s = sequencerMove s := by
  simp [step, machineStep, hh, hp]

/-- Settles O23: both steps are the sequencer's move, which ignores the host's tape. -/
theorem wordWaitsWhileThePortIsNotReady : Obligations.WordWaitsWhileThePortIsNotReady := by
  intro s t w rest hp hh
  have hnotReady : portReady s = false := by rcases hp with hp | hp <;> simp [portReady, hp]
  have hsilent : step (withHost s []) = onNext (withHost · []) (sequencerMove s) :=
    (step_of_host_nil rfl).trans (ignoresHost_sequencerMove s [])
  rw [step_leaves_word hnotReady hh]
  constructor
  · intro h
    rw [h] at hsilent
    exact ⟨sequencerMove_host h, hsilent⟩
  · rintro ⟨hhost, h⟩
    calc sequencerMove s
      _ = onNext (withHost · s.env.host) (sequencerMove (withHost s [])) :=
        ignoresHost_sequencerMove (withHost s []) s.env.host
      _ = onNext (withHost · s.env.host) (.next (withHost t [])) :=
        congrArg _ ((step_of_host_nil rfl).symm.trans h)
      _ = .next t := by rw [← hhost]; rfl

end Sys2Proof.Machine
end

section
/-! The six host operations in IDLE (R193 to R198). -/

namespace Sys2Proof.Machine

open Sys2Proof.Safety

/-! ## The counter of claims -/

/-- Settles O11: ACQUIRE by its one check (R193). -/
theorem acquireCountsUpOrIsBusyAt255 : Obligations.AcquireCountsUpOrIsBusyAt255 := by
  refine ⟨by decide, fun s hp => ?_⟩
  rw [exec, execAcquire, hostOp_idle hp, claimMax]
  by_cases h : s.claimCnt = 255#8
  · rw [if_pos h, if_pos h]; rfl
  · rw [if_neg h, if_neg h]; rfl

/-- Settles O12: RELEASE by its one check (R194). -/
theorem releaseCountsDownOrIsInvalidAt0 : Obligations.ReleaseCountsDownOrIsInvalidAt0 := by
  refine ⟨by decide, fun s hp => ?_⟩
  rw [exec, execRelease, hostOp_idle hp]
  by_cases h : s.claimCnt = 0#8
  · rw [if_pos h, if_pos h]; rfl
  · rw [if_neg h, if_neg h]; rfl

/-! ## The checks, in the statements' terms -/

section
variable {s : State} (hp : s.phase = .idle)
include hp

/-- Without a claim a setter or a COMMIT is Busy (R191). -/
theorem hostOp_unclaimed (hc : s.claimCnt = 0#8) (run : State → Out) :
    hostOp s (fun s => if !claimed s then .next (complete .busy s) else run s) = .next (complete .busy s) := by
  rw [hostOp_idle hp, if_pos (by simp [claimed, hc])]

/-- With a claim it goes on to its other checks (R191). -/
theorem hostOp_claimed (hc : s.claimCnt ≠ 0#8) (run : State → Out) :
    hostOp s (fun s => if !claimed s then .next (complete .busy s) else run s) = run s := by
  rw [hostOp_idle hp, if_neg (by simp [claimed, hc])]

end

theorem ledIdOk_iff (a : Byte) : ledIdOk a = true ↔ a.toNat ≤ 2 := by
  simp [ledIdOk, ledCount, Nat.lt_succ_iff]
theorem ledCodeOk_iff (b : Byte) : ledCodeOk b = true ↔ b = 1#8 ∨ b = 2#8 := by simp [ledCodeOk]
theorem freqOk_iff (a : Byte) : freqOk a = true ↔ a = 1#8 ∨ a = 2#8 ∨ a = 3#8 := by simp [freqOk, or_assoc]
theorem axisOk_iff (a : Byte) : axisOk a = true ↔ a = 0#8 ∨ a = 1#8 := by simp [axisOk]
theorem indexOk_iff (v : Variant) (b : Byte) : indexOk v b = true ↔ b.toNat < tableSize v := by simp [indexOk]

/-! ## SETLED -/

/-- SETLED on a claimed block: the domain of its operands (R195). -/
theorem exec_setled_claimed {s : State} (hp : s.phase = .idle) (hc : s.claimCnt ≠ 0#8) (a b : Byte) :
    exec (.setled a b) s =
      if a.toNat ≤ 2 ∧ ledOf s.conf a.toNat ≠ 0#2 ∧ (b = 1#8 ∨ b = 2#8) then
        .next (complete .ok (markDirty (setLedState a.toNat (b.setWidth 2) s)))
      else .next (complete .invalidArgument s) := by
  rw [exec, execSetled, hostOp_claimed hp hc]
  simp only [← ledCodeOk_iff]
  by_cases ha : a.toNat ≤ 2
  · rw [ledOf_eq_ledState _ ha]
    by_cases hs : ledState s.conf a.toNat = 0#2
    · simp [(ledIdOk_iff a).mpr ha, hs, ledUnsupported]
    · cases hb : ledCodeOk b <;> simp [(ledIdOk_iff a).mpr ha, ha, hs, ledUnsupported]
  · simp [mt (ledIdOk_iff a).mp ha, ha]

/-- The LED code written is the operand's (R195). -/
theorem setWidth_ledCode {b : Byte} (h : b = 1#8 ∨ b = 2#8) : b.setWidth 2 = if b = 1#8 then 1#2 else 2#2 := by
  rcases h with rfl | rfl <;> rfl

/-- A write of an LED leaves all but CONFIG (R27). -/
theorem setLedState_eq (i : Nat) (c : BitVec 2) (s : State) :
    setLedState i c s = { s with conf := (setLedState i c s).conf } := by
  unfold setLedState; split <;> rfl

/-- Settles O13: the operands' domain, and of CONFIG one LED. -/
theorem setledWritesTheAddressedLed : Obligations.SetledWritesTheAddressedLed := by
  intro s a b hp
  refine ⟨by rw [encode, hostWord_eq_or]; rfl, fun hc => ?_, fun hc hbad => ?_, fun hc ha hsup hb => ?_⟩
  · rw [exec, execSetled, hostOp_unclaimed hp hc]; rfl
  · refine (exec_setled_claimed hp hc a b).trans (if_neg ?_)
    rintro ⟨ha, hsup, hb⟩
    rcases hbad with hid | hunsupported | ⟨hoff, hon⟩
    · exact absurd ha (Nat.not_le.mpr hid)
    · exact hsup hunsupported
    · exact hb.elim hoff hon
  · obtain ⟨hwritten, hothers, hfreq, hx, hy, hvariant⟩ :=
      setLedState_conf a.toNat (b.setWidth 2) s (Nat.lt_succ_of_le ha)
    refine ⟨_, (exec_setled_claimed hp hc a b).trans (if_pos ⟨ha, hsup, hb⟩), ?_, fun k hk => ?_, hfreq, hx, hy, hvariant⟩
    · rw [setLedState_eq]; rfl
    · rw [ledOf_eq_ledState _ hk, ledOf_eq_ledState _ hk, ← setWidth_ledCode hb]
      by_cases h : k = a.toNat
      · rw [if_pos h, h]; exact hwritten
      · rw [if_neg h]; exact hothers k h

/-! ## SETFREQ -/

/-- Settles O14: the claim, then the domain of the code (R196). -/
theorem setfreqWritesTheCode : Obligations.SetfreqWritesTheCode := by
  intro s a hp
  refine ⟨by simp [encode, hostWord_eq_or], ?_⟩
  rw [exec, execSetfreq]
  by_cases hc : s.claimCnt = 0#8
  · rw [hostOp_unclaimed hp hc, if_pos hc]; rfl
  · rw [hostOp_claimed hp hc, if_neg hc]
    simp only [← freqOk_iff]
    cases freqOk a <;> rfl

/-! ## SETRES -/

/-- SETRES on a claimed block: the domain of its operands (R197). -/
theorem exec_setres_claimed {s : State} (hp : s.phase = .idle) (hc : s.claimCnt ≠ 0#8) (a b : Byte) :
    exec (.setres a b) s =
      if (a = 0#8 ∨ a = 1#8) ∧ b.toNat < tableSize s.conf.variant then
        .next (complete .ok (markDirty (if a = 0#8 then setXmap (b.setWidth 7) s else setYmap (b.setWidth 7) s)))
      else .next (complete .invalidArgument s) := by
  rw [exec, execSetres, hostOp_claimed hp hc]
  simp only [← axisOk_iff, ← indexOk_iff]
  cases axisOk a with
  | false => rfl
  | true =>
    cases indexOk s.conf.variant b with
    | false => rfl
    | true => by_cases h : a = 0#8 <;> simp [h]

/-- A table index fits the 7 bits of a cursor (R29, R140). -/
theorem toNat_setWidth_index {v : Variant} {b : Byte} (h : b.toNat < tableSize v) : (b.setWidth 7).toNat = b.toNat := by
  have hsize : tableSize v ≤ 82 := by cases v <;> decide
  rw [BitVec.toNat_setWidth]
  omega

/-- It is read back whole (R37, R197). -/
theorem setWidth_setWidth_index {v : Variant} {b : Byte} (h : b.toNat < tableSize v) : (b.setWidth 7).setWidth 8 = b := by
  apply BitVec.eq_of_toNat_eq
  rw [BitVec.toNat_setWidth_of_le (by decide), toNat_setWidth_index h]

/-- Settles O15: the operands' domain, and of CONFIG one cursor. -/
theorem setresWritesTheAddressedCursor : Obligations.SetresWritesTheAddressedCursor := by
  intro s a b hp entries
  have hsize : entries = tableSize s.conf.variant := by cases h : s.conf.variant <;> simp only [entries, h] <;> rfl
  refine ⟨by rw [encode, hostWord_eq_or]; rfl, fun hc => ?_, fun hc hbad => ?_, fun hc ha hb => ?_⟩
  · rw [exec, execSetres, hostOp_unclaimed hp hc]; rfl
  · refine (exec_setres_claimed hp hc a b).trans (if_neg ?_)
    rintro ⟨ha, hb⟩
    rcases hbad with ⟨hx, hy⟩ | hindex
    · exact ha.elim hx hy
    · exact absurd hb (by omega)
  · rw [hsize] at hb
    refine ⟨_, (exec_setres_claimed hp hc a b).trans (if_pos ⟨ha, hb⟩), ?_⟩
    by_cases h : a = 0#8
    · simp only [if_pos h]
      exact ⟨rfl, rfl, toNat_setWidth_index hb, setWidth_setWidth_index hb⟩
    · simp only [if_neg h]
      exact ⟨rfl, rfl, toNat_setWidth_index hb, setWidth_setWidth_index hb⟩

/-! ## COMMIT -/

/-- Settles O16: the check of the claim comes before the others (R191, R198). -/
theorem unclaimedCommitIsBusy : Obligations.UnclaimedCommitIsBusy := by
  intro s force hp hc
  rw [exec, execCommit, hostOp_unclaimed hp hc]
  rfl

/-- Settles O18: with a claim, an unforced COMMIT looks at DIRTY next (R198). -/
theorem cleanCommitSendsNothing : Obligations.CleanCommitSendsNothing := by
  intro s hp hc hd
  rw [exec, execCommit, hostOp_claimed hp hc, if_pos (by simp [hd])]
  rfl

/-- Settles O17: the sequence that starts sends RESENCODE's frame from stage RES. -/
theorem commitStartsWithTheResolutionFrame : Obligations.CommitStartsWithTheResolutionFrame := by
  intro s force hp hc hf
  refine ⟨_, resEncode s.conf, execCommit_starts hp hc hf, isResolutionFrame_resEncode s.conf,
    ⟨fun a => ?_, fun a => peek_rx_sent _ _ a⟩, ?_, by simp, by simp, by simp [sameRegisters], by simp⟩
  · rw [peek_tx_sent, withChecksum_resEncode]; rfl
  · rw [sent_trace, withChecksum_resEncode]; rfl

end Sys2Proof.Machine
end

section
/-! Precise errors at the host command port (R236). -/

namespace Sys2Proof.Machine

/-- An outcome from u that completes with an error completes from u itself: nothing was written before (R236). -/
def ErrorsPrecise (u : State) (o : Out) : Prop :=
  ∀ (t : State) (r : ResultCode), o = .next t → t.trace = u.trace ++ [.done r] → r ≠ .ok → t = complete r u

/-! ## The outcomes an operation is made of -/

section
variable {u v : State}

/-- A completion from u itself is precise, whatever its code. -/
theorem errorsPrecise_complete (r : ResultCode) : ErrorsPrecise u (.next (complete r u)) := by
  rintro t r' ⟨⟩ htrace -
  have hcode : r = r' := by simpa using htrace
  rw [hcode]

/-- A success may have written anything but the trace: it is no error. -/
theorem errorsPrecise_ok (hv : v.trace = u.trace) : ErrorsPrecise u (.next (complete .ok v)) := by
  rintro t r ⟨⟩ htrace hr
  have hcode : .ok = r := by simpa [hv] using htrace
  exact absurd hcode.symm hr

/-- A send ends the step with a request, not with a completion. -/
theorem errorsPrecise_sent (f : Frame) (hv : v.trace = u.trace) : ErrorsPrecise u (.next (sent f v)) := by
  rintro t r ⟨⟩ htrace
  simp [hv] at htrace

/-- A word that is not taken completes nothing. -/
theorem errorsPrecise_unchanged : ErrorsPrecise u (.next u) := by
  rintro t r ⟨⟩ htrace
  simp at htrace

/-- A check is precise when both its branches are. -/
theorem ErrorsPrecise.ite {c : Prop} [Decidable c] {a b : Out} (ha : ErrorsPrecise u a) (hb : ErrorsPrecise u b) :
    ErrorsPrecise u (if c then a else b) := by
  split
  · exact ha
  · exact hb

/-- The check of PHASE is precise before a precise body (R191). -/
theorem errorsPrecise_hostOp {run : State → Out} (h : ErrorsPrecise u (run u)) : ErrorsPrecise u (hostOp u run) := by
  rcases hostOp_cases u run with ⟨_, e⟩ | ⟨_, e⟩ | ⟨_, e⟩ <;> rw [e]
  · exact h
  · exact errorsPrecise_complete _
  · exact errorsPrecise_unchanged

end

/-! ## The operations -/

/-- Every instruction makes its checks before it writes: an error comes from an unchanged state, a write is followed by
success or a send (R236). -/
theorem errorsPrecise_exec (i : Instr) (u : State) : ErrorsPrecise u (exec i u) := by
  cases hi : encode i with
  | frame f =>
    rw [exec_of_encode_frame hi]
    exact errorsPrecise_sent f rfl
  | host w =>
    cases i <;> simp only [encode, reduceCtorEq] at hi
    case acquire =>
      unfold exec execAcquire
      exact errorsPrecise_hostOp (.ite (errorsPrecise_complete _) (errorsPrecise_ok rfl))
    case release =>
      unfold exec execRelease
      exact errorsPrecise_hostOp (.ite (errorsPrecise_complete _) (errorsPrecise_ok rfl))
    case setled a b =>
      unfold exec execSetled
      exact errorsPrecise_hostOp (.ite (errorsPrecise_complete _) (.ite (errorsPrecise_complete _)
        (.ite (errorsPrecise_complete _) (.ite (errorsPrecise_complete _) (errorsPrecise_ok (by simp))))))
    case setfreq a =>
      unfold exec execSetfreq
      exact errorsPrecise_hostOp (.ite (errorsPrecise_complete _) (.ite (errorsPrecise_complete _) (errorsPrecise_ok rfl)))
    case setres a b =>
      unfold exec execSetres
      exact errorsPrecise_hostOp (.ite (errorsPrecise_complete _) (.ite (errorsPrecise_complete _)
        (.ite (errorsPrecise_complete _) (.ite (errorsPrecise_ok rfl) (errorsPrecise_ok rfl)))))
    case commit force =>
      unfold exec execCommit
      refine errorsPrecise_hostOp (.ite (errorsPrecise_complete _) (.ite (errorsPrecise_ok rfl) ?_))
      rw [commitSeq_eq]
      exact errorsPrecise_sent _ rfl

/-- So does a word, legal or not (R81, R236). -/
theorem errorsPrecise_takeWord (w : HostWord) (u : State) : ErrorsPrecise u (takeWord w u) := by
  cases hd : decodeHost w with
  | ok i =>
    rw [takeWord_of_decodeHost hd]
    exact errorsPrecise_exec i u
  | error e =>
    simp only [takeWord, hd]
    exact errorsPrecise_hostOp (errorsPrecise_complete _)

/-- The register map shows the code of the last completion (R37, R192). -/
theorem regRead_result_complete (r : ResultCode) (u : State) : regRead 0x02#8 (complete r u) = resultCode r := rfl

/-- Settles O20: the step takes the word, and the word's errors are precise. -/
theorem errorsOfHostWordsArePrecise : Obligations.ErrorsOfHostWordsArePrecise := by
  intro s t w rest r hp hh hstep htrace hr
  rw [step_takes_word hp hh] at hstep
  have ht := errorsPrecise_takeWord w _ t r hstep htrace hr
  subst ht
  refine ⟨rfl, (regRead_result_complete r _).trans ?_⟩
  cases r <;> rfl

end Sys2Proof.Machine
end

section
/-! RESET and the outstanding request: what the reset state is, what becomes of the tapes, and a block whose answer has not
come (R260 to R262, R273). -/

namespace Sys2Proof.Machine

open Sys2Proof.Safety

/-! ## RESET -/

/-- With a RESET as the host's move, the step is that RESET, whatever the block does (R260). -/
theorem step_of_reset {s : State} {gen : Variant} {thumb : Bool} {rest : List HostMove}
    (h : s.env.host = .reset gen thumb :: rest) : step s = .next (applyReset gen thumb (dropHostMove s)) := by
  simp only [step, machineStep, h]

/-- Nothing has been written to a buffer since reset (R34, R262). -/
@[simp] theorem peek_afterReset (gen : Variant) (thumb : Bool) (p : Params) (e : Env) (b : Buf) (a : Nat) :
    peek (State.afterReset gen thumb p e) b a = none := by
  cases b <;> rfl

theorem dropAbandoned_host (w : Wait) (e : Env) : (dropAbandoned w e).host = e.host := by
  cases w <;> rfl

/-- Of the three tapes of answers only the one waited on loses its head (R261). -/
theorem dropAbandoned_writes (w : Wait) (e : Env) :
    (dropAbandoned w e).writes = if w = .write then e.writes.drop 1 else e.writes := by
  cases w <;> simp [dropAbandoned]

theorem dropAbandoned_reads (w : Wait) (e : Env) :
    (dropAbandoned w e).reads = if w = .read then e.reads.drop 1 else e.reads := by
  cases w <;> simp [dropAbandoned]

theorem dropAbandoned_ticks (w : Wait) (e : Env) :
    (dropAbandoned w e).ticks = if w = .sleep then e.ticks - 1 else e.ticks := by
  cases w <;> simp [dropAbandoned]

/-- Settles O25: the registers are those of the reset state, the tapes those RESET leaves. -/
theorem resetTakesEveryRegisterToItsResetValue : Obligations.ResetTakesEveryRegisterToItsResetValue := by
  intro s gen thumb rest hh
  have hhost : (dropHostMove s).env.host = rest := congrArg List.tail hh
  exact ⟨_, step_of_reset hh, rfl, rfl, rfl, rfl, rfl, rfl, rfl, rfl, rfl, rfl, rfl, rfl, rfl, rfl,
    fun b a => peek_afterReset _ _ _ _ b a, rfl, rfl, (dropAbandoned_host _ _).trans hhost,
    dropAbandoned_writes _ _, dropAbandoned_reads _ _, dropAbandoned_ticks _ _⟩

/-- Settles O37: the invariant holds at reset, and every trace condition speaks there of an empty trace. -/
theorem resetMeetsTheInvariants : Obligations.ResetMeetsTheInvariants := fun gen thumb p e =>
  ⟨inv_afterReset gen thumb p e, rfl, rfl, fun _ _ => rfl, fun a => peek_afterReset gen thumb p e .tx a, rfl⟩

/-! ## An answer that has not come -/

/-- The sequencer does not move on while it waits (R273). -/
theorem sequencerMove_of_not_answerReady {s : State} (hw : s.pc.wait ≠ .none) (ha : answerReady s = false) :
    sequencerMove s = .next s := by
  unfold sequencerMove
  split
  next => rfl
  next =>
    cases hwait : s.pc.wait with
    | none => exact absurd hwait hw
    | write =>
      have hq : s.env.writes = [] := by simpa [answerReady, hwait] using ha
      simp only [hq]
    | read =>
      have hq : s.env.reads = [] := by simpa [answerReady, hwait] using ha
      simp only [hq]
    | sleep =>
      have hq : s.env.ticks = 0 := by simpa [answerReady, hwait] using ha
      simp only [hq]

/-- Settles O24: with a silent host the step is the sequencer's, which waits. -/
theorem noAnswerNoChange : Obligations.NoAnswerNoChange := by
  intro s hh hw ha
  rw [step_of_host_nil hh]
  exact sequencerMove_of_not_answerReady hw ha

end Sys2Proof.Machine
end

section
/-! Termination: every answer uses up one of the steps that `stepsLeft` counts, so a routine that is answered ends (R271,
R272). -/

namespace Sys2Proof.Machine

open Sys2Proof.Safety

/-! ## The steps a routine has left -/

/-- A routine runs and waits at one of its stages: a position where `stepsLeft` counts what is left of the exchange and of
the stages after it. -/
structure Waits (s : State) : Prop where
  phase : s.phase = .init ∨ s.phase = .busy
  wait : s.pc.wait ≠ .none
  stage : s.pc.stage ≠ .absent

/-- The steps a routine can still take when the exchange under way is over: those of the later probe attempts and of the
commit sequence (R271). -/
def laterSteps (s : State) : Nat :=
  match s.pc.stage with
  | .absent => 0
  | .probe => 5 * (5 - s.micro.pattempt) + 20
  | .res => 16
  | .led => 4 * (3 - s.micro.led)
  | .freq => 0

theorem laterSteps_of_probe {s : State} (h : s.pc.stage = .probe) :
    laterSteps s = 5 * (5 - s.micro.pattempt) + 20 := by
  simp only [laterSteps, h]

theorem laterSteps_of_res {s : State} (h : s.pc.stage = .res) : laterSteps s = 16 := by
  simp only [laterSteps, h]

theorem laterSteps_of_led {s : State} (h : s.pc.stage = .led) : laterSteps s = 4 * (3 - s.micro.led) := by
  simp only [laterSteps, h]

theorem laterSteps_of_freq {s : State} (h : s.pc.stage = .freq) : laterSteps s = 0 := by
  simp only [laterSteps, h]

theorem laterSteps_congr {s t : State} (hs : t.pc.stage = s.pc.stage) (hp : t.micro.pattempt = s.micro.pattempt)
    (hl : t.micro.led = s.micro.led) : laterSteps t = laterSteps s := by
  simp only [laterSteps, hs, hp, hl]

theorem stepsLeft_of_ready {s : State} (h : s.phase = .idle ∨ s.phase = .offline) : stepsLeft s = 0 := by
  rcases h with h | h <;> simp [stepsLeft, h]

theorem stepsLeft_of_entry {s : State} (h : s.phase = .init) (hpc : s.pc = SeqPc.entry) : stepsLeft s = 45 := by
  simp [stepsLeft, h, hpc]

theorem Waits.stepsLeft_eq {s : State} (h : Waits s) : stepsLeft s = transfersLeft s + laterSteps s := by
  obtain ⟨hp, hw, hs⟩ := h
  have he := pc_ne_entry_of_wait hw
  unfold stepsLeft laterSteps
  rcases hp with hp | hp <;> rw [hp] <;> cases hst : s.pc.stage <;> simp_all [Nat.add_assoc]

/-- A running routine is at the reset position or waits (R32). -/
theorem Position.entry_or_waits {s : State} (h : Position s) (hp : s.phase = .init ∨ s.phase = .busy) :
    (s.phase = .init ∧ s.pc = SeqPc.entry) ∨ Waits s := by
  cases h with
  | ready h => rcases h with h | h <;> simp [h] at hp
  | atReset h hpc => exact .inl ⟨h, hpc⟩
  | initializing _ _ hs hw => exact .inr ⟨hp, hw, hs⟩
  | committing _ _ hs hw =>
    exact .inr ⟨hp, by rcases hw with h | h <;> simp [h], by rcases hs with h | h | h <;> simp [h]⟩

/-- Only the probe sleeps (R161). -/
theorem Position.probe_of_sleep {s : State} (h : Position s) (hw : s.pc.wait = .sleep) : s.pc.stage = .probe := by
  cases h with
  | ready _ hpc => rw [hpc] at hw; cases hw
  | atReset _ hpc => rw [hpc] at hw; cases hw
  | initializing _ _ _ _ hsleep => exact hsleep hw
  | committing _ _ _ hwait => rcases hwait with h | h <;> rw [h] at hw <;> cases hw

theorem transfersLeft_of_write {s : State} (h : s.pc.wait = .write) : transfersLeft s = 4 := by
  simp [transfersLeft, h]

theorem transfersLeft_of_read {s : State} (h : s.pc.wait = .read) : transfersLeft s = 4 - s.micro.rattempt := by
  simp [transfersLeft, h]

theorem transfersLeft_of_sleep {s : State} (h : s.pc.wait = .sleep) : transfersLeft s = 0 := by
  simp [transfersLeft, h]

theorem transfersLeft_le (s : State) : transfersLeft s ≤ 4 := by
  unfold transfersLeft
  split <;> omega

/-- An exchange under way still has the transfer it waits for (R128). -/
theorem Counters.transfersLeft_pos {s : State} (h : Counters s) (hw : s.pc.wait = .write ∨ s.pc.wait = .read) :
    0 < transfersLeft s := by
  rcases hw with hw | hw
  · rw [transfersLeft_of_write hw]; decide
  · have := h.reading hw
    rw [transfersLeft_of_read hw]; omega

/-- After the exchange under way there are at most four probe attempts with their sleeps and five exchanges of the commit
sequence (R271). -/
theorem Counters.laterSteps_le {s : State} (h : Counters s) (hw : s.pc.wait ≠ .none) : laterSteps s ≤ 40 := by
  unfold laterSteps
  cases hs : s.pc.stage with
  | probe =>
    have := h.probing hs hw
    dsimp only
    omega
  | absent | res | led | freq => dsimp only; omega

/-- No routine has more than 45 steps left (R271). -/
theorem Invariant.stepsLeft_le {s : State} (h : Invariant s) : stepsLeft s ≤ 45 := by
  by_cases hp : s.phase = .init ∨ s.phase = .busy
  · rcases h.position.entry_or_waits hp with ⟨hi, hpc⟩ | hwaits
    · rw [stepsLeft_of_entry hi hpc]
    · have htransfers := transfersLeft_le s
      have hlater := h.counters.laterSteps_le hwaits.wait
      rw [hwaits.stepsLeft_eq]
      omega
  · rw [stepsLeft_of_ready (by cases hs : s.phase <;> simp_all)]
    omega

/-- A running routine has a step left. -/
theorem Invariant.stepsLeft_pos {s : State} (h : Invariant s) (hp : s.phase = .init ∨ s.phase = .busy) :
    0 < stepsLeft s := by
  rcases h.position.entry_or_waits hp with ⟨hi, hpc⟩ | hwaits
  · rw [stepsLeft_of_entry hi hpc]; decide
  · rw [hwaits.stepsLeft_eq]
    cases hw : s.pc.wait with
    | none => exact absurd hw hwaits.wait
    | write => exact Nat.add_pos_left (h.counters.transfersLeft_pos (.inl hw)) _
    | read => exact Nat.add_pos_left (h.counters.transfersLeft_pos (.inr hw)) _
    | sleep =>
      rw [laterSteps_of_probe (h.position.probe_of_sleep hw)]
      omega

/-! ## What a move uses up -/

/-- A routine that waits again is shorter when the exchange under way and the stages after it are together. -/
theorem Waits.stepsLeft_lt {u t : State} (hu : Waits u) (ht : Waits t)
    (h : transfersLeft t + laterSteps t < transfersLeft u + laterSteps u) : stepsLeft t < stepsLeft u := by
  rwa [hu.stepsLeft_eq, ht.stepsLeft_eq]

/-- After an exchange the next frame's exchange is one of those that were to come. -/
theorem Exchange.stepsLeft_lt_of_write {u v t : State} {r : ResultCode} (hv : Exchange u r v) (hu : Waits u)
    (hc : Counters u) (ht : Waits t) (hw : t.pc.wait = .write) (h : laterSteps t + 4 ≤ laterSteps u) :
    stepsLeft t < stepsLeft u := by
  have hx := hc.transfersLeft_pos hv.waiting
  refine hu.stepsLeft_lt ht ?_
  rw [transfersLeft_of_write hw]
  omega

/-- A routine that ends has no step left. -/
theorem stepsLeft_lt_of_ready {u t : State} (h : 0 < stepsLeft u) (ht : t.phase = .idle ∨ t.phase = .offline) :
    stepsLeft t < stepsLeft u := by
  rwa [stepsLeft_of_ready ht]

theorem stepsLeft_lt_of_commitReturn {r : ResultCode} {u v t : State} (h : 0 < stepsLeft u) (hr : v.pc.routine ≠ .none)
    (ht : commitReturn r v = .next t) : stepsLeft t < stepsLeft u := by
  refine stepsLeft_lt_of_ready h ?_
  rcases commitReturn_cases hr ht with ⟨_, rfl⟩ | ⟨_, rfl⟩
  · by_cases hok : r = .ok <;> simp [hok]
  · simp

/-- At RES and LED the LEDs from id i on and the last frame are still to be sent (R164). -/
theorem laterSteps_of_loop {u : State} {i : Nat}
    (h : (u.pc.stage = .res ∧ i = 0) ∨ (u.pc.stage = .led ∧ i = u.micro.led + 1)) :
    laterSteps u = 4 * (4 - i) := by
  rcases h with ⟨hs, rfl⟩ | ⟨hs, rfl⟩
  · exact laterSteps_of_res hs
  · rw [laterSteps_of_led hs]; omega

/-- While a routine runs, a move that is no waiting uses up a step. -/
theorem Move.stepsLeft_lt {u t : State} (hm : Move u t) (h : Invariant u) (hp : u.phase = .init ∨ u.phase = .busy) :
    t = u ∨ stepsLeft t < stepsLeft u := by
  have hc := h.counters
  have hpos := h.stepsLeft_pos hp
  have waits : u.pc.wait ≠ .none → Waits u := fun hw =>
    (h.position.entry_or_waits hp).resolve_left fun ⟨_, he⟩ => pc_ne_entry_of_wait hw he
  cases hm with
  | waits => exact .inl rfl
  | offline h | turnedAway h | cleanCommit h | acquires h | releases h | setsLed h | setsFreq h | setsX h | setsY h
  | commits h => simp [h] at hp
  | starts he =>
    right
    have ht : Waits (sent fwqueryFrame (setPattempt 1 (setStage .probe (setClaims 1#8 u)))) :=
      ⟨by simpa using hp, by simp, by simp⟩
    rw [stepsLeft_of_entry (h.position.phase_of_init (by rw [he]; rfl)) he, ht.stepsLeft_eq,
      transfersLeft_of_write (by simp), laterSteps_of_probe (by simp)]
    simp
  | sendsCur hr hw he => exact absurd (h.position.eq_entry hr hw) he
  | written _ hw =>
    right
    have hu := waits (by simp [hw])
    refine hu.stepsLeft_lt ⟨by simpa using hp, by simp, by simpa using hu.stage⟩ ?_
    rw [transfersLeft_of_write hw, transfersLeft_of_read (by simp),
      laterSteps_congr (s := u) (by simp) (by simp) (by simp)]
    simp
  | rereads _ hw ha =>
    right
    have hu := waits (by simp [hw])
    refine hu.stepsLeft_lt ⟨by simpa using hp, by simp, by simpa using hu.stage⟩ ?_
    rw [transfersLeft_of_read hw, transfersLeft_of_read (by simp),
      laterSteps_congr (s := u) (by simp) (by simp) (by simp)]
    simp only [xferRead_micro, setRattempt_micro]
    omega
  | sleeps _ _ _ _ _ hv =>
    right
    have hu := waits hv.waited
    refine hu.stepsLeft_lt ⟨by simpa [hv.phase] using hp, by simp, by simpa [hv.pc] using hu.stage⟩ ?_
    have hx := hc.transfersLeft_pos hv.waiting
    rw [transfersLeft_of_sleep (by simp),
      laterSteps_congr (s := u) (by simp [hv.pc]) (by simp [hv.micro]) (by simp [hv.micro])]
    omega
  | wakes _ hw =>
    right
    have hu := waits (by simp [hw])
    have hs := h.position.probe_of_sleep hw
    have hlt := hc.sleeping hw
    refine hu.stepsLeft_lt ⟨by simpa using hp, by simp, by simpa using hu.stage⟩ ?_
    rw [transfersLeft_of_sleep hw, transfersLeft_of_write (by simp), laterSteps_of_probe hs,
      laterSteps_of_probe (by simpa using hs)]
    simp only [sent_micro, setPattempt_micro]
    omega
  | probeEnds _ _ _ _ _ _ _ ht =>
    cases eq_of_initFinish ht
    exact .inr (stepsLeft_lt_of_ready hpos (.inr rfl))
  | probed _ hs hw b hb =>
    have hv := Exchange.response hw b hb
    exact .inr (hv.stepsLeft_lt_of_write (waits hv.waited) hc ⟨by simpa using hp, by simp, by simp⟩ (by simp)
      (by rw [laterSteps_of_res (by simp), laterSteps_of_probe hs]; omega))
  | nextLed _ i k hi hk _ hv =>
    have hle : i ≤ k := by simpa using List.find?_some hk
    have hk := le_two_of_find_ledList hk
    refine .inr (hv.stepsLeft_lt_of_write (waits hv.waited) hc
      ⟨by simpa [hv.phase] using hp, by simp, by simp⟩ (by simp) ?_)
    rw [laterSteps_of_loop hi, laterSteps_of_led (by simp)]
    simp only [sent_micro, setLedIndex_micro]
    omega
  | toFreq _ i hi _ _ _ _ hv =>
    refine .inr (hv.stepsLeft_lt_of_write (waits hv.waited) hc
      ⟨by simpa [hv.phase] using hp, by simp, by simp⟩ (by simp) ?_)
    have hle : i ≤ 3 := by
      rcases hi with ⟨_, rfl⟩ | ⟨hs, rfl⟩
      · decide
      · have := hc.atLed hs; omega
    rw [laterSteps_of_loop hi, laterSteps_of_freq (by simp)]
    omega
  | badFreq hr _ _ _ _ _ _ hv ht =>
    exact .inr (stepsLeft_lt_of_commitReturn hpos (by simpa [hv.pc] using hr) ht)
  | ends hr _ _ _ _ hv ht => exact .inr (stepsLeft_lt_of_commitReturn hpos (by rwa [hv.pc]) ht)
  | nowhere hr hs => exact absurd hs (h.position.stage_ne_absent hr)

/-! ## A step whose answer has come -/

/-- With a request outstanding whose answer has come, and no RESET, the step takes the answer. -/
theorem answered_of_answerReady {s t : State} (hn : noReset s = true) (hp : portReady s = false)
    (hr : s.pc.routine ≠ .none) (hw : s.pc.wait ≠ .none) (ha : answerReady s = true) (hstep : step s = .next t) :
    ∃ moves, Answered (withEnv s { s.env with host := moves }) t := by
  cases hwait : s.pc.wait with
  | none => exact absurd hwait hw
  | write =>
    cases hq : s.env.writes with
    | nil => simp [answerReady, hwait, hq] at ha
    | cons a rest =>
      obtain ⟨moves, hanswer⟩ := step_writeAnswer hn hp hr hwait hq
      exact ⟨moves, answered_of_writeAnswer hr hwait hq (hanswer ▸ hstep)⟩
  | read =>
    cases hq : s.env.reads with
    | nil => simp [answerReady, hwait, hq] at ha
    | cons a rest =>
      obtain ⟨moves, hanswer⟩ := step_readAnswer hn hp hr hwait hq
      exact ⟨moves, answered_of_readAnswer hr hwait hq (hanswer ▸ hstep)⟩
  | sleep =>
    cases hq : s.env.ticks with
    | zero => simp [answerReady, hwait, hq] at ha
    | succ n =>
      obtain ⟨moves, hanswer⟩ := step_sleepDone hn hp hr hwait hq
      exact ⟨moves, answered_of_sleepDone hwait hq (hanswer ▸ hstep)⟩

/-- While a routine runs, its answer has come and no RESET is asserted, the step appends an event. -/
theorem trace_ne_of_answerReady {s t : State} (h : Position s) (hp : s.phase = .init ∨ s.phase = .busy)
    (hn : noReset s = true) (ha : answerReady s = true) (hstep : step s = .next t) : t.trace ≠ s.trace := by
  have hport : portReady s = false := by rcases hp with hp | hp <;> simp [portReady, hp]
  rcases h.entry_or_waits hp with ⟨-, he⟩ | hwaits
  · obtain ⟨moves, hquiet⟩ := step_quiet hn hport
    have hstart : sequencerMove (withEnv s { s.env with host := moves }) = initStart _ :=
      (sequencerMove_of_no_wait (by simp [he, SeqPc.entry]) (by simp [he, SeqPc.entry])).trans (if_pos he)
    rw [hquiet, hstart, initStart_eq] at hstep
    cases hstep
    simp
  · have hr : s.pc.routine ≠ .none := fun hr => by
      rcases h.routine_eq_none_iff.mp hr with hready | hready <;> simp [hready] at hp
    obtain ⟨moves, -, -, hs | ⟨logs, e, -, htr, -⟩⟩ := answered_of_answerReady hn hport hr hwaits.wait ha hstep
    · exact absurd hs hwaits.stage
    · simp [htr]

/-- Such a step uses up one of the steps left. -/
theorem stepsLeft_lt_of_answerReady {s t : State} (h : inv s = true) (hp : s.phase = .init ∨ s.phase = .busy)
    (hn : noReset s = true) (ha : answerReady s = true) (hstep : step s = .next t) : stepsLeft t < stepsLeft s := by
  have hne := trace_ne_of_answerReady ((inv_iff s).mp h).position hp hn ha hstep
  obtain ⟨e, hm⟩ := move_of_step hn hstep
  have hu : Invariant (withEnv s e) := (inv_iff _).mp h
  rcases hm.stepsLeft_lt hu hp with rfl | hlt
  · exact absurd rfl hne
  · exact hlt

/-- Settles O53: the measure is bounded part by part, and every move but waiting lowers it. -/
theorem eachAnswerShortensTheRoutine : Obligations.EachAnswerShortensTheRoutine :=
  ⟨fun _ h => ((inv_iff _).mp h).stepsLeft_le, fun _ _ => stepsLeft_lt_of_answerReady⟩

/-! ## A run that is answered -/

/-- At least n answers of each agent are to come. -/
structure AnswersToCome (n : Nat) (s : State) : Prop where
  writes : n ≤ s.env.writes.length
  reads : n ≤ s.env.reads.length
  ticks : n ≤ s.env.ticks

theorem AnswersToCome.answerReady {n : Nat} {s : State} (h : AnswersToCome n s) (hn : 0 < n) : answerReady s = true := by
  obtain ⟨hwrites, hreads, hticks⟩ := h
  unfold Safety.answerReady
  cases s.pc.wait with
  | none => rfl
  | write => simpa [← List.length_pos_iff] using Nat.lt_of_lt_of_le hn hwrites
  | read => simpa [← List.length_pos_iff] using Nat.lt_of_lt_of_le hn hreads
  | sleep => simpa using Nat.lt_of_lt_of_le hn hticks

/-- A step takes at most one answer of each agent. -/
theorem AnswersToCome.of_step {n m : Nat} {s t : State} (h : AnswersToCome n s) (hn : noReset s = true)
    (hstep : step s = .next t) (hm : m < n) : AnswersToCome m t := by
  obtain ⟨hwrites, hreads, hticks⟩ := h
  rcases step_takes hn hstep with ⟨-, ⟨hw, hr, ht⟩, -⟩ | ⟨-, htaken, -, -⟩
  · rw [← hw] at hwrites
    rw [← hr] at hreads
    exact ⟨by omega, by omega, by omega⟩
  · unfold answerTaken at htaken
    split at htaken
    case h_1 => exact htaken.elim
    case h_2 =>
      obtain ⟨⟨a, hw⟩, hr, ht⟩ := htaken
      rw [hw, List.length_cons] at hwrites
      rw [← hr] at hreads
      exact ⟨by omega, by omega, by omega⟩
    case h_3 =>
      obtain ⟨⟨a, hr⟩, hw, ht⟩ := htaken
      rw [← hw] at hwrites
      rw [hr, List.length_cons] at hreads
      exact ⟨by omega, by omega, by omega⟩
    case h_4 =>
      obtain ⟨ht, hw, hr⟩ := htaken
      rw [← hw] at hwrites
      rw [← hr] at hreads
      exact ⟨by omega, by omega, by omega⟩

/-- From every state of the invariant the routine under way ends within the steps it has left, if it is answered (R272). -/
theorem exists_run_to_ready {s : State} (h : inv s = true) (hhost : s.env.host = [])
    (ha : AnswersToCome (stepsLeft s) s) :
    ∃ n t, n ≤ stepsLeft s ∧ Host.Core.run core n s = .next t ∧ (t.phase = .idle ∨ t.phase = .offline) := by
  induction hk : stepsLeft s using Nat.strong_induction_on generalizing s with
  | _ k ih =>
    subst hk
    by_cases hp : s.phase = .init ∨ s.phase = .busy
    · have hn : noReset s = true := by simp [noReset, hhost]
      have hready := ha.answerReady (((inv_iff s).mp h).stepsLeft_pos hp)
      obtain ⟨t, hstep⟩ := noStepStopsWhereThePositionIsLegal.1 s ((inv_iff s).mp h).position.positionOk
      have hlt := stepsLeft_lt_of_answerReady h hp hn hready hstep
      have hhost' : t.env.host = [] := (sequencerMove_host (step_of_host_nil hhost ▸ hstep)).trans hhost
      obtain ⟨n, u, hle, hrun, hu⟩ :=
        ih _ hlt (everyStepKeepsTheInvariant s t h hstep) hhost' (ha.of_step hn hstep hlt) rfl
      exact ⟨n + 1, u, by omega, (run_step hstep n).trans hrun, hu⟩
    · exact ⟨0, s, Nat.zero_le _, rfl, by cases hs : s.phase <;> simp_all⟩

/-- Settles O54: the run is found by induction on the steps left. -/
theorem everyRoutineEnds : Obligations.EveryRoutineEnds := fun _ h hhost hwrites hreads hticks =>
  exists_run_to_ready h hhost ⟨hwrites, hreads, hticks⟩

end Sys2Proof.Machine
end
